-- ==== Sys2Proof/Word.lean ====
section
/-! DEFINITION. The two bit-vector widths of the block: a register or command word is 32 bits (00_scope.md R10), a byte of
the snapshot memory 8 (10_state.md R30). Every other value of a rule is a natural number (R12). -/
namespace Sys2Proof

/-- A register value or a command word (R10). -/
abbrev Word := BitVec 32

/-- A byte of the snapshot memory, and a channel of a pixel (R13, R75). -/
abbrev Byte := BitVec 8

end Sys2Proof
end

