-- ==== Sys2Proof/Syntax.lean ====
section
/-! DEFINITION. The nine commands of 30_encoding.md R109, one constructor per row of the opcode table. An operand is a
natural number (R12, R108); `Instr.wf` (WellFormed.lean) says which numbers a field can hold. -/
namespace Sys2Proof

inductive Instr where
  /-- NOP (40_control.md R140). -/
  | nop
  /-- VALIDATE (R142). -/
  | validate
  /-- CLRERR (R145). -/
  | clrerr
  /-- TMDEC WORD (41_tilemap_entry.md R162). -/
  | tmdec (word : Nat)
  /-- TMFETCH MT, ENT (R164). -/
  | tmfetch (mt ent : Nat)
  /-- PIXIDX TILE, ROW, COL (42_plane_decoder.md R186). -/
  | pixidx (tile row col : Nat)
  /-- PALRES SEL, IDX (43_palette_lookup.md R206). -/
  | palres (sel idx : Nat)
  /-- MTBUILD MT (44_metatile_combiner.md R236). -/
  | mtbuild (mt : Nat)
  /-- RASTER (45_tileset_rasterizer.md R253). -/
  | raster
  deriving DecidableEq, Repr

end Sys2Proof
end

