-- ==== Sys2Proof/WellFormed.lean ====
section
/-! DEFINITION. Which operands have an encoding: every operand inside the range of its field (30_encoding.md R103 to R107,
R113: an operand outside its range is an assembly error and has no encoding). -/
namespace Sys2Proof

def Instr.wf : Instr → Bool
  | .nop => true
  | .validate => true
  | .clrerr => true
  | .tmdec word => decide (word < 2 ^ 16)
  | .tmfetch mt ent => decide (mt < 256) && decide (ent < 16)
  | .pixidx tile row col => decide (tile < 1024) && decide (row < 8) && decide (col < 8)
  | .palres sel idx => decide (sel < 8) && decide (idx < 16)
  | .mtbuild mt => decide (mt < 256)
  | .raster => true

end Sys2Proof
end

