-- ==== Sys2Proof/Decode.lean ====
section
/-! DEFINITION. The decoder (30_encoding.md R100 to R112), total on every word and every byte list, rejecting by name; after
it the encoder, written from the same tables (R102 to R107, R113). -/
namespace Sys2Proof

/-- `w[hi:lo]` as a number (00_scope.md R11). -/
def field (w : Word) (hi lo : Nat) : Nat :=
  w.toNat / 2 ^ lo % 2 ^ (hi + 1 - lo)

/-- Why a word is no command (R112). -/
inductive Illegal where
  /-- R112 (a): OPC is none of the nine. -/
  | unassignedOpcode (opc : Nat)
  /-- R112 (b): an assigned OPC with a nonzero reserved bit. -/
  | reservedBits (opc : Nat)
  /-- Not four bytes: a command is one 32-bit word (R100). -/
  | notOneWord (bytes : Nat)
  deriving DecidableEq, Repr

/-- A row of the opcode map (R110): the word selects the row when `w & mask = matchWord`; `operands` reads the fields of
the row's format. -/
structure Row where
  mnemonic : String
  matchWord : Word
  mask : Word
  operands : Word → Instr

/-- The table of R110, row by row, with the field positions of R102 to R107. -/
def opcodeTable : List Row :=
  [ ⟨"NOP",      0x00000000#32, 0xFFFFFFFF#32, fun _ => .nop⟩,
    ⟨"VALIDATE", 0x01000000#32, 0xFFFFFFFF#32, fun _ => .validate⟩,
    ⟨"CLRERR",   0x02000000#32, 0xFFFFFFFF#32, fun _ => .clrerr⟩,
    ⟨"TMDEC",    0x10000000#32, 0xFFFF0000#32, fun w => .tmdec (field w 15 0)⟩,
    ⟨"TMFETCH",  0x11000000#32, 0xFFFFF000#32, fun w => .tmfetch (field w 7 0) (field w 11 8)⟩,
    ⟨"PIXIDX",   0x20000000#32, 0xFFFF0000#32, fun w => .pixidx (field w 9 0) (field w 12 10) (field w 15 13)⟩,
    ⟨"PALRES",   0x30000000#32, 0xFFFFFF80#32, fun w => .palres (field w 6 4) (field w 3 0)⟩,
    ⟨"MTBUILD",  0x40000000#32, 0xFFFFFF00#32, fun w => .mtbuild (field w 7 0)⟩,
    ⟨"RASTER",   0x50000000#32, 0xFFFFFFFF#32, fun _ => .raster⟩ ]

/-- The nine assigned values of OPC (R109). -/
def assignedOpcodes : List Nat :=
  [0x00, 0x01, 0x02, 0x10, 0x11, 0x20, 0x30, 0x40, 0x50]

def Row.selects (r : Row) (w : Word) : Bool :=
  decide (w &&& r.mask = r.matchWord)

/-- The decoding function of R111. -/
def decode (w : Word) : Except Illegal Instr :=
  match opcodeTable.find? (fun r => r.selects w) with
  | some r => .ok (r.operands w)
  | none =>
    if field w 31 24 ∈ assignedOpcodes then .error (.reservedBits (field w 31 24))
    else .error (.unassignedOpcode (field w 31 24))

/-- The four bytes of a 32-bit word on a byte-addressed bus, bits 7:0 first (10_state.md R24). -/
def laneBytes (w : Word) : List Byte :=
  [w.extractLsb' 0 8, w.extractLsb' 8 8, w.extractLsb' 16 8, w.extractLsb' 24 8]

/-- The word whose lanes are the four bytes (R24). -/
def wordOfLanes (b0 b1 b2 b3 : Byte) : Word :=
  b3 ++ b2 ++ b1 ++ b0

/-- The decoder on bytes: a command is exactly one word, its bytes in lane order (R24, R100). -/
def decodeBytes : List Byte → Except Illegal Instr
  | [b0, b1, b2, b3] => decode (wordOfLanes b0 b1 b2 b3)
  | bs => .error (.notOneWord bs.length)

/-- The decoder on a word as spec/opcode_table.json numbers its bits; every bit above `nbits` is 0. -/
def decodeTableWord (nbits w : Nat) : Option Instr :=
  match decodeBytes (laneBytes (BitVec.ofNat 32 (w % 2 ^ nbits))) with
  | .ok i => some i
  | .error _ => none

/-- The word of a command (R113, with the field positions of R102 to R107). -/
def encode : Instr → Word
  | .nop => 0x00000000#32
  | .validate => 0x01000000#32
  | .clrerr => 0x02000000#32
  | .tmdec word => 0x10000000#32 ||| BitVec.ofNat 32 word
  | .tmfetch mt ent => 0x11000000#32 ||| (BitVec.ofNat 32 ent <<< 8) ||| BitVec.ofNat 32 mt
  | .pixidx tile row col =>
    0x20000000#32 ||| (BitVec.ofNat 32 col <<< 13) ||| (BitVec.ofNat 32 row <<< 10) ||| BitVec.ofNat 32 tile
  | .palres sel idx => 0x30000000#32 ||| (BitVec.ofNat 32 sel <<< 4) ||| BitVec.ofNat 32 idx
  | .mtbuild mt => 0x40000000#32 ||| BitVec.ofNat 32 mt
  | .raster => 0x50000000#32

end Sys2Proof
end

