-- ==== Sys2Proof/Config.lean ====
section
/-! DEFINITION. What a build fixes (00_scope.md R8, R9) and the free values: what the spec leaves open is an `opaque`
constant, so no proof can see a value of it. -/
namespace Sys2Proof

/-- One recognized capture format `(SIZE_k, BASE_k)` (R8). -/
structure Format where
  size : Nat
  base : Nat
  deriving DecidableEq, Repr, Inhabited

/-- `UNWRITTEN_SNAP_READ` (R8, 70_reset_and_hazards.md R343): what a core read of a snapshot byte not written since
power-on gives. The hardware takes `value`; log 3. -/
inductive UnwrittenRead where
  | value
  | fault
  deriving DecidableEq, Repr, Inhabited

/-- The implementation parameters of R8, under the names of its table. -/
structure Params where
  formats : List Format
  tilemapLa : Nat
  gfxLa : Nat
  palLa : Nat
  snapMax : Nat
  unwrittenSnapRead : UnwrittenRead
  planePairSwapped : Bool
  deriving DecidableEq, Repr, Inhabited

/-- The constraints of R8 (1 to 16 formats, sizes pairwise distinct and at most SNAP_MAX, 1 ≤ SNAP_MAX ≤ 2^32) and of R9
(every region of every format starts at an even snapshot offset). -/
def Params.wf (p : Params) : Bool :=
  decide (1 ≤ p.formats.length) && decide (p.formats.length ≤ 16) &&
  decide (p.formats.map Format.size).Nodup &&
  p.formats.all (fun f => decide (f.size ≤ p.snapMax)) &&
  decide (1 ≤ p.snapMax) && decide (p.snapMax ≤ 2 ^ 32) &&
  p.formats.all (fun f =>
    decide ((f.base + p.tilemapLa) % 2 = 0) && decide ((f.base + p.gfxLa) % 2 = 0) &&
    decide ((f.base + p.palLa) % 2 = 0))

/-- A build of this hardware: parameters that meet R8 and R9. Parameters that violate a constraint are no instance of the
hardware and a model refuses them (R9): they are no value of this type. -/
abbrev Build := { p : Params // p.wf = true }

/-- The build made of parameters, or a refusal (`none`) where they violate R8 or R9. -/
def Build.ofParams? (p : Params) : Option Build :=
  if h : p.wf = true then some ⟨p, h⟩ else none

/-- The test configuration TCFG of 95_test_vectors.md section 0. -/
def Params.tcfg : Params :=
  { formats := [⟨0xA100, 0x0000⟩, ⟨0xA200, 0x0100⟩, ⟨0x9000, 0x0000⟩]
    tilemapLa := 0x0000, gfxLa := 0x2000, palLa := 0xA000, snapMax := 0x10000
    unwrittenSnapRead := .value, planePairSwapped := false }

def Build.tcfg : Build := ⟨Params.tcfg, by decide⟩

/-- FREE. The open parameters of R8 (D14, D15, D16): no source gives them. DESIGN CHOICE, log 1. -/
opaque Config.freeParams : Params

/-- The build that `State.reset` runs on: any parameters that meet R8 and R9, with the two parameters the spec does fix for
this hardware (`value`, R343; `false`, R181). Were the free parameters no legal build, TCFG would stand in, so that this is
a legal build whatever they are; nothing else about it can be proved. DESIGN CHOICE, log 1. -/
def Config.build : Build :=
  (Build.ofParams?
    { Config.freeParams with unwrittenSnapRead := .value, planePairSwapped := false }).getD Build.tcfg

/-- FREE. The byte that the n-th power-on leaves at a snapshot offset: an unspecified byte, the same on every read until
written (R343, I8, I9). DESIGN CHOICE, log 2. -/
opaque Config.powerOnByte : (powerOn : Nat) → (offset : Nat) → Byte

/-- FREE. What ERR_ADDR holds after an OutOfRange whose offset does not fit in its 32 bits: R35 states no value there, R10
only that offsets are below 2^32. DESIGN CHOICE, log 10. -/
opaque Config.wideErrAddr : (offset : Nat) → Word

/-- FREE. The base offset in force while FMT_IDX names no format; no run reaches a state that uses it (R37). DESIGN CHOICE,
log 11. -/
opaque Config.strayBase : (fmtIdx : Nat) → Nat

end Sys2Proof
end

