-- ==== Sys2Proof/Machine/State.lean ====
section
/-! DEFINITION. The state of the block (10_state.md R20 to R42), of its frame sink and of the host's pending moves, as plain
data; the reasons a step can stop; the state after power-on. -/
namespace Sys2Proof.Machine

/-- The five command errors of 60_exceptions.md R310. -/
inductive CmdError where
  | invalidSize
  | outOfRange
  | outputWriteFailure
  | illegalCommand
  | notValidated
  deriving DecidableEq, Repr

/-- STATUS field by field (R26). Bits 31:11 are reserved and hold nothing. -/
structure Status where
  busy : Bool
  done : Bool
  valid : Bool
  err : Bool
  errCode : BitVec 4
  frameValid : Bool
  cmdOvf : Bool
  wlock : Bool
  deriving DecidableEq, Repr

/-- The reset value of STATUS (R23, R42). -/
def Status.reset : Status :=
  { busy := false, done := false, valid := false, err := false, errCode := 0#4
    frameValid := false, cmdOvf := false, wlock := false }

/-- A colour, 8 bits a channel (00_scope.md R15). -/
structure RGB where
  r : Byte
  g : Byte
  b : Byte
  deriving DecidableEq, Repr

/-- A decoded tilemap entry (R15, 41_tilemap_entry.md R160). -/
structure Entry where
  tile : Nat
  pal : Nat
  prio : Bool
  hflip : Bool
  vflip : Bool
  deriving DecidableEq, Repr

/-- What the read phase of a metatile has read for one entry: the tilemap word and the planar record it names
(44_metatile_combiner.md R232). -/
structure Cell where
  word : Nat
  record : List Byte
  deriving DecidableEq, Repr

/-- The sequencer position (R38): the values already read and which event of the running command's reference sequence
comes next. -/
inductive Pos where
  /-- Empty: no event performed yet; also the position while no command is in flight (R42). -/
  | start
  /-- A single-read command (TMFETCH, PIXIDX, PALRES) has its bytes. -/
  | got (bytes : List Byte)
  /-- MTBUILD, RASTER: the palette and the cells of metatile `mt` so far are read; the next tilemap word comes next. -/
  | reading (pal : List Byte) (mt : Nat) (cells : List Cell)
  /-- The tilemap word `word` of the next cell is read too; its record comes next. -/
  | record (pal : List Byte) (mt : Nat) (cells : List Cell) (word : Nat)
  /-- All cells of metatile `mt` are read and its first `n` pixels accepted; FrameWrite number `n` awaits its answer. -/
  | writing (pal : List Byte) (mt : Nat) (cells : List Cell) (n : Nat)
  /-- Every FrameWrite is accepted; completion comes next. -/
  | emitted
  /-- A memory event failed; the abort step comes next (R305). -/
  | failed (e : CmdError) (info : Nat)
  deriving DecidableEq, Repr

/-- The frame sink's answer to a FrameWrite (20_memory.md R75). -/
inductive SinkAnswer where
  | ok
  | err
  deriving DecidableEq, Repr

/-- A FrameWrite the sink accepted: pixel index and colour (R75). -/
structure Pixel where
  index : Nat
  colour : RGB
  deriving DecidableEq, Repr

/-- A host access to one of the two ports (R24, R61). `width` is the access width in bits. -/
inductive Access where
  | regRead (width off : Nat)
  | regWrite (width off : Nat) (v : Word)
  | snapRead (off : Nat)
  | snapWrite (off : Nat) (v : Byte)
  deriving DecidableEq, Repr

/-- What a port answers to an access (R24, R61). -/
inductive Reply where
  | accepted
  | word (v : Word)
  | byte (v : Byte)
  | busError
  deriving DecidableEq, Repr

/-- Who moves next (R16, R77, R300). DESIGN CHOICE, log 5. -/
inductive Move where
  /-- One host access. -/
  | host (a : Access)
  /-- One step of the core: a memory event, a completion or an abort (R300). -/
  | core
  /-- The core runs until its command has ended, or until it waits for a sink that is silent. Log 6. -/
  | run
  /-- The host's loop WAIT (30_encoding.md R114), at its next poll of STATUS. `gaps` lists how many steps the core takes
  between one poll and the next; once the list is used up the core runs between two polls. Log 16. -/
  | wait (gaps : List Nat)
  /-- Power-on (70_reset_and_hazards.md R340). -/
  | powerOn
  deriving DecidableEq, Repr

/-- The snapshot bytes written since power-on, addresses strictly rising (10_state.md R30). An offset that is not listed
holds its power-on byte (R343), which no entry can equal: being listed says that it was written. Log 15. -/
abbrev Memory := List Host.Cell

/-- Why a step stops. -/
inductive Fault where
  /-- Raised by SnapRead on a build with UNWRITTEN_SNAP_READ = `fault`, when the read covers a byte not written since
  power-on; `off` is the read's offset (R343, I8). Safe: the hardware takes `value` and goes on. Log 3. -/
  | unwrittenSnapRead (off : Nat)
  deriving DecidableEq, Repr

/-- Why an instruction has no meaning. -/
inductive Refusal where
  /-- Raised only by an arm of `exec` whose instruction has no meaning yet. Safe. -/
  | notModelled (mnemonic : String)
  deriving DecidableEq, Repr

structure State where
  /-- Configuration, not state (R20): the build's parameters; no step changes it. Log 1. -/
  cfg : Build
  /-- STATUS (R26). -/
  status : Status
  /-- SNAP_SIZE (R29). -/
  snapSize : Word
  /-- FMT_IDX (R31). -/
  fmtIdx : Word
  /-- RES_ENTRY (R32). -/
  resEntry : Word
  /-- RES_INDEX (R33). -/
  resIndex : Word
  /-- RES_RGB (R34). -/
  resRgb : Word
  /-- ERR_ADDR (R35). -/
  errAddr : Word
  /-- SNAP (R30). -/
  snap : Memory
  /-- The model's own: which power-on the unwritten bytes of SNAP come from. Log 2. -/
  powerOns : Nat
  /-- The command-in-flight latch (R39). -/
  latch : Option Word
  /-- The sequencer position (R38). -/
  pos : Pos
  /-- Input: the sink's answers to come, in order; when none is left the sink is silent (R75, R361). Log 7. -/
  sink : List SinkAnswer
  /-- The sink's side: the FrameWrites it accepted, newest first (R40, R75). Log 9. -/
  frame : List Pixel
  /-- Input: the moves to come (R77, R300). Log 5. -/
  sched : List Move
  /-- The ports' answers to the host, newest first. Log 14. -/
  replies : List Reply
  deriving DecidableEq, Repr

/-- The state after the n-th power-on of a build (R42, R340): every register at its reset value, no command in flight,
nothing of SNAP written, the sink untouched. -/
def State.powerOn (cfg : Build) (n : Nat) : State :=
  { cfg := cfg, status := Status.reset
    snapSize := 0#32, fmtIdx := 0#32, resEntry := 0#32, resIndex := 0#32, resRgb := 0#32, errAddr := 0#32
    snap := [], powerOns := n, latch := none, pos := .start
    sink := [], frame := [], sched := [], replies := [] }

/-- The machine right after power-on reset (R340), on a build of which only R8 and R9 are known (log 1). -/
def State.reset : State := State.powerOn Config.build 0

end Sys2Proof.Machine
end

