-- ==== Sys2Proof/Machine/Flags.lean ====
section
/-! DEFINITION. STATUS: its word (10_state.md R26), the error codes (60_exceptions.md R310) and every rule that writes a
flag. No flag is computed from a data value (R27). -/
namespace Sys2Proof.Machine

/-- The code of an error (R310). -/
def CmdError.code : CmdError → BitVec 4
  | .invalidSize => 1#4
  | .outOfRange => 2#4
  | .outputWriteFailure => 3#4
  | .illegalCommand => 4#4
  | .notValidated => 5#4

/-- The 32-bit word a read of STATUS returns: the fields at the bits of R26, reserved bits 0. -/
def Status.toWord (f : Status) : Word :=
  BitVec.ofNat 32
    (f.busy.toNat + 2 * f.done.toNat + 4 * f.valid.toNat + 8 * f.err.toNat + 16 * f.errCode.toNat +
      256 * f.frameValid.toNat + 512 * f.cmdOvf.toNat + 1024 * f.wlock.toNat)

/-- The acceptance step's flags (R301, R302); `frameCmd` says that the command is MTBUILD or RASTER, which also clears
FRAME_VALID (44_metatile_combiner.md R235). -/
def Status.accept (frameCmd : Bool) (f : Status) : Status :=
  { f with busy := true, done := false, err := false, errCode := 0#4
           frameValid := if frameCmd then false else f.frameValid }

/-- The completion step's flags (R304). -/
def Status.complete (f : Status) : Status :=
  { f with busy := false, done := true }

/-- The abort step's flags (R305). DONE is not written: it has been 0 since acceptance. -/
def Status.raise (e : CmdError) (f : Status) : Status :=
  { f with busy := false, err := true, errCode := e.code }

/-- VALIDATE's result (40_control.md R142), and the lapse of validity at a snapshot write (20_memory.md R62). -/
def Status.setValid (v : Bool) (f : Status) : Status :=
  { f with valid := v }

/-- RASTER's success (45_tileset_rasterizer.md R254). -/
def Status.setFrameValid (f : Status) : Status :=
  { f with frameValid := true }

/-- CLRERR's two clears (40_control.md R145). -/
def Status.clearSticky (f : Status) : Status :=
  { f with cmdOvf := false, wlock := false }

/-- A CMD write dropped while BUSY (10_state.md R28). -/
def Status.setCmdOvf (f : Status) : Status :=
  { f with cmdOvf := true }

/-- A snapshot or SNAP_SIZE write dropped while BUSY (20_memory.md R62). -/
def Status.setWlock (f : Status) : Status :=
  { f with wlock := true }

end Sys2Proof.Machine
end

