-- ==== Sys2Proof/Machine/Operands.lean ====
section
/-! DEFINITION. The pure functions of the four sub-units: byte-swap normalization (20_memory.md R66, R69), the tilemap entry
(41_tilemap_entry.md R160), the planar record (42_plane_decoder.md R181 to R183), the palette (43_palette_lookup.md R202 to
R205) and the placement in metatile and frame (44_metatile_combiner.md R230 to R234, 45_tileset_rasterizer.md R250, R251). -/
namespace Sys2Proof.Machine

/-! ### Byte sequences -/

/-- `s[k]` (00_scope.md R13). Every rule indexes inside the sequence; outside it this gives 0, which nothing uses (log 18). -/
def byteAt (s : List Byte) (k : Nat) : Nat :=
  (s.getD k 0#8).toNat

/-- `word16(x, y) = x + 256 * y` (R13). -/
def word16 (x y : Nat) : Nat :=
  x + 256 * y

/-- Byte-swap normalization of R66, pair by pair from the first byte of the field (R67). -/
def bswap : List Byte → List Byte
  | a :: b :: s => b :: a :: bswap s
  | s => s

/-- The value of the 16-bit field at position `k` (in bytes) of a field read from the snapshot: normalized, then read most
significant byte first (R69). -/
def fieldWord (s : List Byte) (k : Nat) : Nat :=
  byteAt (bswap s) k * 256 + byteAt (bswap s) (k + 1)

/-! ### Tilemap entry -/

/-- R160, mask by mask. -/
def decodeEntry (w : Nat) : Entry :=
  { tile := w &&& 0x03FF
    pal := (w &&& 0x1C00) >>> 10
    prio := decide (w &&& 0x2000 ≠ 0)
    hflip := decide (w &&& 0x4000 ≠ 0)
    vflip := decide (w &&& 0x8000 ≠ 0) }

/-- An entry with each field at its bit position in RES_ENTRY (10_state.md R32, as R162 writes it). -/
def packEntry (e : Entry) : Nat :=
  e.tile + (e.pal <<< 10) + (e.prio.toNat <<< 13) + (e.hflip.toNat <<< 14) + (e.vflip.toNat <<< 15)

/-! ### Planar record -/

/-- Which byte of the normalized record holds row `r` of plane `p` (R181): planes 0 and 1 in the pair at `2r` of the first
half, 2 and 3 in the pair at `16 + 2r`; the even plane is the pair's second byte, or its first where `swapped`. Log 4. -/
def planeOffset (swapped : Bool) (p r : Nat) : Nat :=
  16 * (p / 2) + 2 * r + (if (p % 2 == 0) == swapped then 0 else 1)

/-- `plane(s, p, r)` (R181). -/
def plane (swapped : Bool) (s : List Byte) (p r : Nat) : Nat :=
  byteAt (bswap s) (planeOffset swapped p r)

/-- `planeBit(s, p, r, c)` (R182): column 0 is the most significant bit. -/
def planeBit (swapped : Bool) (s : List Byte) (p r c : Nat) : Nat :=
  (plane swapped s p r >>> (7 - c)) &&& 1

/-- `pixelIndex(s, r, c)` (R183). -/
def pixelIndex (swapped : Bool) (s : List Byte) (r c : Nat) : Nat :=
  planeBit swapped s 0 r c + 2 * planeBit swapped s 1 r c + 4 * planeBit swapped s 2 r c +
    8 * planeBit swapped s 3 r c

/-- `decodeTile(s)`, row 0 at the top (R184). -/
def decodeTile (swapped : Bool) (s : List Byte) : List (List Nat) :=
  (List.range 8).map fun r => (List.range 8).map fun c => pixelIndex swapped s r c

/-! ### Palette -/

/-- `packed(pal, sel, idx)` (R202; 90_conflicts.md C1). -/
def packed (pal : List Byte) (sel idx : Nat) : Nat :=
  fieldWord pal (2 * (16 * sel + idx))

/-- `scale(v) = (v * 255) / 31` (R204). -/
def scale (v : Nat) : Nat :=
  v * 255 / 31

/-- SENTINEL (R6, R205). -/
def sentinel : RGB := ⟨1#8, 1#8, 1#8⟩

/-- The colour of a packed value: R in bits 4:0, G in 9:5, B in 14:10, bit 15 unused (R203), each scaled (R204). -/
def unpackColour (v : Nat) : RGB :=
  { r := BitVec.ofNat 8 (scale (v &&& 31))
    g := BitVec.ofNat 8 (scale ((v >>> 5) &&& 31))
    b := BitVec.ofNat 8 (scale ((v >>> 10) &&& 31)) }

/-- `resolve(pal, sel, idx)` (R205): index 0 does not consult the palette. -/
def resolve (pal : List Byte) (sel idx : Nat) : RGB :=
  if idx = 0 then sentinel else unpackColour (packed pal sel idx)

/-- A colour as RES_RGB holds it (10_state.md R34, R206). -/
def packRgb (c : RGB) : Nat :=
  c.r.toNat + (c.g.toNat <<< 8) + (c.b.toNat <<< 16)

/-! ### Placement -/

/-- `subTilePosition(j)` (R230). -/
def subTilePosition (j : Nat) : Nat × Nat :=
  (j / 4, j % 4)

/-- The entry of metatile pixel `(y, x)` (R231). -/
def entryOfPixel (y x : Nat) : Nat :=
  4 * (y / 8) + x / 8

/-- `metatilePosition(i)` (R250). -/
def metatilePosition (i : Nat) : Nat × Nat :=
  (i / 16, i % 16)

/-- The frame index of pixel `(y, x)` of metatile `i` (R234). -/
def frameIndex (i y x : Nat) : Nat :=
  512 * (32 * (i / 16) + y) + (32 * (i % 16) + x)

/-- `metatilePixel(pal, e, rec, y, x)` (R232). The flags prio, hflip and vflip do not enter it (R233). -/
def metatilePixel (swapped : Bool) (pal : List Byte) (cells : List Cell) (y x : Nat) : RGB :=
  let cell := cells.getD (entryOfPixel y x) ⟨0, []⟩
  resolve pal (decodeEntry cell.word).pal (pixelIndex swapped cell.record (y % 8) (x % 8))

end Sys2Proof.Machine
end

