-- ==== Sys2Proof/Machine/Ops.lean ====
section
/-! DEFINITION. The shared operations: the snapshot memory, address translation (20_memory.md R63), SnapRead (R64) and
FrameWrite (R75), the command lifecycle of 60_exceptions.md R300 to R306 (acceptance, completion, abort), the two resets
(70_reset_and_hazards.md R340, R341), and how a command's actions are performed one by one. -/
namespace Sys2Proof.Machine

/-- The outcome of a step of this machine. -/
abbrev Result := Host.Outcome State Fault Refusal

/-! ### Snapshot memory -/

/-- The canonical form: addresses strictly rising. -/
def Memory.wf : Memory → Bool
  | [] => true
  | [_] => true
  | (a, _) :: (b, v) :: m => decide (a < b) && Memory.wf ((b, v) :: m)

/-- The byte written at an address since power-on; `none` where nothing was written. -/
def Memory.get? : Memory → Nat → Option Byte
  | [], _ => none
  | (k, v) :: m, a => if a = k then some v else Memory.get? m a

/-- A byte write: the canonical form is kept. -/
def Memory.set : Memory → Nat → Byte → Memory
  | [], a, v => [(a, v)]
  | (k, w) :: m, a, v =>
    if a < k then (a, v) :: (k, w) :: m
    else if a = k then (a, v) :: m
    else (k, w) :: Memory.set m a v

/-- SNAP[a]: the byte written there, or the byte power-on left there (R343, log 2). -/
def State.snapByte (s : State) (a : Nat) : Byte :=
  (s.snap.get? a).getD (Config.powerOnByte s.powerOns a)

/-- `[SNAP[off], …, SNAP[off+n-1]]`, stored order (R64). -/
def State.snapBytes (s : State) (off n : Nat) : List Byte :=
  (List.range n).map fun k => s.snapByte (off + k)

/-- Whether a read covers a byte not written since power-on (R343). -/
def State.coversUnwritten (s : State) (off n : Nat) : Bool :=
  (List.range n).any fun k => (s.snap.get? (off + k)).isNone

/-! ### Address translation -/

/-- BASE, the base offset in force (10_state.md R37); it is used only while VALID = 1, when FMT_IDX names a format (log 11). -/
def State.base (s : State) : Nat :=
  match s.cfg.val.formats[s.fmtIdx.toNat]? with
  | some f => f.base
  | none => Config.strayBase s.fmtIdx.toNat

/-- The offset of tilemap word j of metatile i (R63, 41_tilemap_entry.md R163). -/
def State.tilemapOffset (s : State) (i j : Nat) : Nat :=
  s.base + s.cfg.val.tilemapLa + 32 * i + 2 * j

/-- The offset of the planar record of tile t (R63, 42_plane_decoder.md R180). -/
def State.recordOffset (s : State) (t : Nat) : Nat :=
  s.base + s.cfg.val.gfxLa + 32 * t

/-- The offset of the palette region (R63, 43_palette_lookup.md R200). -/
def State.paletteOffset (s : State) : Nat :=
  s.base + s.cfg.val.palLa

/-! ### Command lifecycle -/

/-- Whether the word decodes to MTBUILD or RASTER (44_metatile_combiner.md R235). -/
def isFrameWord (w : Word) : Bool :=
  match decode w with
  | .ok (.mtbuild _) => true
  | .ok .raster => true
  | _ => false

/-- The acceptance step (R301, R302): the latch takes the word, BUSY <- 1, the last command's outcome is cleared. Clearing
ERR, ERRCODE and ERR_ADDR here is the only way out of an error (R321). -/
def State.accept (w : Word) (s : State) : State :=
  { s with latch := some w, pos := .start, errAddr := 0#32, status := s.status.accept (isFrameWord w) }

/-- `done`, the completion step (R304), of a state that already holds the command's register writes. -/
def State.complete (s : State) : State :=
  { s with latch := none, pos := .start, status := s.status.complete }

/-- ERR_ADDR's value for an error's information (R35); a number beyond its 32 bits has no stated value (log 10). -/
def errInfo (info : Nat) : Word :=
  if info < 2 ^ 32 then BitVec.ofNat 32 info else Config.wideErrAddr info

/-- `raise E(info)`, the abort step (R305): TAKING AN ERROR. It saves the code and the information and returns the block to
idle; there is no handler and no saved context (R320). -/
def State.raise (e : CmdError) (info : Nat) (s : State) : State :=
  { s with latch := none, pos := .start, errAddr := errInfo info, status := s.status.raise e }

/-! ### Resets -/

/-- The sink's answers to come once the block has stopped waiting for one: an outstanding answer is ignored (R341, log 8). -/
def State.answersAfterStop (s : State) : List SinkAnswer :=
  match s.pos with
  | .writing _ _ _ _ => s.sink.tail
  | _ => s.sink

/-- Soft reset (R341): every register at its reset value, no command in flight; SNAP and the sink's pixels stay. -/
def State.softReset (s : State) : State :=
  { s with status := Status.reset
           snapSize := 0#32, fmtIdx := 0#32, resEntry := 0#32, resIndex := 0#32, resRgb := 0#32, errAddr := 0#32
           latch := none, pos := .start, sink := s.answersAfterStop }

/-- Power-on (R340, R343): as soft reset, and SNAP holds a new unspecified content. -/
def State.powerCycle (s : State) : State :=
  { s.softReset with snap := [], powerOns := s.powerOns + 1 }

/-! ### A command's actions -/

/-- What the core does next for the command in flight (R300, R306). -/
inductive Action where
  /-- The completion or the abort step: it leads to `t`. -/
  | last (t : State)
  /-- SnapRead(off, n); the bytes lead to the position `next bytes`. -/
  | read (off n : Nat) (next : List Byte → Pos)
  /-- FrameWrite(p, colour); acceptance leads to the position `next`. -/
  | write (p : Nat) (colour : RGB) (next : Pos)

/-- SnapRead (R64) as one step: out of range, nothing is read and the abort comes next; a byte not written since power-on
stops a build that takes `fault` (R343). -/
def snapRead (off n : Nat) (next : List Byte → Pos) (s : State) : Result :=
  if s.snapSize.toNat < off + n then .next { s with pos := .failed .outOfRange off }
  else if s.cfg.val.unwrittenSnapRead = .fault ∧ s.coversUnwritten off n = true then .fault (.unwrittenSnapRead off)
  else .next { s with pos := next (s.snapBytes off n) }

/-- FrameWrite (R75) as one step: the sink's answer to it is taken; while the sink gives none the core waits (R361). -/
def frameWrite (p : Nat) (colour : RGB) (next : Pos) (s : State) : State :=
  match s.sink with
  | [] => s
  | .ok :: rest => { s with sink := rest, frame := ⟨p, colour⟩ :: s.frame, pos := next }
  | .err :: rest => { s with sink := rest, pos := .failed .outputWriteFailure p }

/-- One step of the core. -/
def perform (a : Action) (s : State) : Result :=
  match a with
  | .last t => .next t
  | .read off n next => snapRead off n next s
  | .write p colour next => .next (frameWrite p colour next s)

/-- Whether the core stops after the action: the command has ended, or the sink is silent (R361). -/
def Action.stops (a : Action) (s : State) : Bool :=
  match a with
  | .last _ => true
  | .read _ _ _ => false
  | .write _ _ _ => s.sink.isEmpty

/-- The core runs a command, given as its next action in each state, for at most `fuel` steps. -/
def runCommand (act : State → Action) : Nat → State → Result
  | 0, s => .next s
  | fuel + 1, s =>
    match perform (act s) s with
    | .next t => if (act s).stops s then .next t else runCommand act fuel t
    | .fault r => .fault r
    | .refused r => .refused r

/-- The most steps a command takes after its acceptance: RASTER's 270337 memory events and its last step (R361). -/
def commandFuel : Nat := 270338

/-- The actions of a command with one SnapRead: the VALID test (R312), the read, then completion with the registers as
`result` writes them from the bytes. -/
def singleRead (off n : Nat) (result : List Byte → State) (s : State) : Action :=
  match s.pos with
  | .got bytes => .last (result bytes).complete
  | .failed e info => .last (s.raise e info)
  | _ => if s.status.valid then .read off n .got else .last (s.raise .notValidated 0)


end Sys2Proof.Machine
end

