-- ==== Sys2Proof/Machine/Control.lean ====
section
/-! DEFINITION. The control commands NOP, VALIDATE and CLRERR (40_control.md). For each command: `act…`, its next action, and
`exec…`, its meaning, which runs it from the state's position to its end. -/
namespace Sys2Proof.Machine

/-- NOP (R140). -/
def actNop (s : State) : Action :=
  .last s.complete

def execNop (s : State) : Result :=
  runCommand actNop commandFuel s

/-- `match(size)` (R141). -/
def matchFormat (c : Params) (size : Nat) : Option Nat :=
  c.formats.findIdx? fun f => f.size == size

/-- VALIDATE (R142). -/
def actValidate (s : State) : Action :=
  .last <|
    match matchFormat s.cfg.val s.snapSize.toNat with
    | none => { s with status := s.status.setValid false }.raise .invalidSize 0
    | some k => { s with fmtIdx := BitVec.ofNat 32 k, status := s.status.setValid true }.complete

def execValidate (s : State) : Result :=
  runCommand actValidate commandFuel s

/-- CLRERR (R145): the clears take effect in the completion step. -/
def actClrerr (s : State) : Action :=
  .last { s with status := s.status.clearSticky }.complete

def execClrerr (s : State) : Result :=
  runCommand actClrerr commandFuel s

end Sys2Proof.Machine
end

