-- ==== Sys2Proof/Machine/MetatileCombiner.lean ====
section
/-! DEFINITION. MTBUILD (44_metatile_combiner.md R232, R235, R236) and the actions it shares with RASTER: the palette read,
then for a metatile its 16 pairs of reads and its 1024 FrameWrites. -/
namespace Sys2Proof.Machine

/-- The position after a record read: the next cell's tilemap word, or after the sixteenth cell the first FrameWrite. -/
def afterRecord (pal : List Byte) (mt : Nat) (cells : List Cell) : Pos :=
  if cells.length < 16 then .reading pal mt cells else .writing pal mt cells 0

/-- The position after FrameWrite number `n` of a metatile: the next one, or after the last what `after` says. -/
def afterPixel (after : Pos) (pal : List Byte) (mt : Nat) (cells : List Cell) (n : Nat) : Pos :=
  if n + 1 < 1024 then .writing pal mt cells (n + 1) else after

/-- The next action of a frame command (R236, R253): `first` is the first metatile, `after pal i` the position once metatile
`i` is emitted, `finish` the register writes of completion. Pixel number `n` of a metatile is `(y, x) = (n / 32, n % 32)`. -/
def frameCommand (first : Nat) (after : List Byte → Nat → Pos) (finish : State → State) (s : State) : Action :=
  match s.pos with
  | .reading pal mt cells =>
    .read (s.tilemapOffset mt cells.length) 2 (fun bytes => .record pal mt cells (fieldWord bytes 0))
  | .record pal mt cells word =>
    .read (s.recordOffset (decodeEntry word).tile) 32 (fun bytes => afterRecord pal mt (cells ++ [⟨word, bytes⟩]))
  | .writing pal mt cells n =>
    .write (frameIndex mt (n / 32) (n % 32))
      (metatilePixel s.cfg.val.planePairSwapped pal cells (n / 32) (n % 32))
      (afterPixel (after pal mt) pal mt cells n)
  | .emitted => .last (finish s).complete
  | .failed e info => .last (s.raise e info)
  | _ =>
    if s.status.valid then .read s.paletteOffset 256 (fun pal => .reading pal first [])
    else .last (s.raise .notValidated 0)

/-- MTBUILD (R236): FRAME_VALID stays as acceptance left it. -/
def actMtbuild (mt : Nat) (s : State) : Action :=
  frameCommand mt (fun _ _ => .emitted) (fun t => t) s

def execMtbuild (mt : Nat) (s : State) : Result :=
  runCommand (actMtbuild mt) commandFuel s

end Sys2Proof.Machine
end

