-- ==== Sys2Proof/Machine/PaletteLookup.lean ====
section
/-! DEFINITION. PALRES (43_palette_lookup.md R200 to R206). -/
namespace Sys2Proof.Machine

/-- RES_RGB <- a colour (R206). -/
def State.withRgb (c : RGB) (s : State) : State :=
  { s with resRgb := BitVec.ofNat 32 (packRgb c) }

/-- PALRES (R206): the sentinel needs VALID but no read; any other index reads the whole palette region. -/
def actPalres (sel idx : Nat) (s : State) : Action :=
  if idx = 0 then
    .last (if s.status.valid then (s.withRgb sentinel).complete else s.raise .notValidated 0)
  else
    singleRead s.paletteOffset 256 (fun pal => s.withRgb (resolve pal sel idx)) s

def execPalres (sel idx : Nat) (s : State) : Result :=
  runCommand (actPalres sel idx) commandFuel s

end Sys2Proof.Machine
end

