-- ==== Sys2Proof/Machine/PlaneDecoder.lean ====
section
/-! DEFINITION. PIXIDX (42_plane_decoder.md R180 to R186). -/
namespace Sys2Proof.Machine

/-- PIXIDX (R186): the whole record is read and range-checked, index 0 is returned as 0. -/
def actPixidx (tile row col : Nat) (s : State) : Action :=
  singleRead (s.recordOffset tile) 32
    (fun bytes => { s with resIndex := BitVec.ofNat 32 (pixelIndex s.cfg.val.planePairSwapped bytes row col) }) s

def execPixidx (tile row col : Nat) (s : State) : Result :=
  runCommand (actPixidx tile row col) commandFuel s

end Sys2Proof.Machine
end

