-- ==== Sys2Proof/Machine/TilemapEntry.lean ====
section
/-! DEFINITION. The tilemap entry commands TMDEC and TMFETCH (41_tilemap_entry.md). -/
namespace Sys2Proof.Machine

/-- RES_ENTRY <- the decoded entry of a tilemap word (R162, R164). -/
def State.withEntry (w : Nat) (s : State) : State :=
  { s with resEntry := BitVec.ofNat 32 (packEntry (decodeEntry w)) }

/-- TMDEC (R162): no memory, no VALID test. -/
def actTmdec (word : Nat) (s : State) : Action :=
  .last (s.withEntry word).complete

def execTmdec (word : Nat) (s : State) : Result :=
  runCommand (actTmdec word) commandFuel s

/-- TMFETCH (R163, R164). -/
def actTmfetch (mt ent : Nat) (s : State) : Action :=
  singleRead (s.tilemapOffset mt ent) 2 (fun bytes => s.withEntry (fieldWord bytes 0)) s

def execTmfetch (mt ent : Nat) (s : State) : Result :=
  runCommand (actTmfetch mt ent) commandFuel s

end Sys2Proof.Machine
end

