-- ==== Sys2Proof/Machine/TilesetRasterizer.lean ====
section
/-! DEFINITION. RASTER (45_tileset_rasterizer.md R253, R254): the palette once, then the 256 metatiles in order. -/
namespace Sys2Proof.Machine

/-- The position once metatile `i` is emitted: the next metatile's reads, or completion after metatile 255. -/
def afterMetatile (pal : List Byte) (i : Nat) : Pos :=
  if i < 255 then .reading pal (i + 1) [] else .emitted

/-- RASTER (R253). -/
def actRaster (s : State) : Action :=
  frameCommand 0 afterMetatile (fun t => { t with status := t.status.setFrameValid }) s

def execRaster (s : State) : Result :=
  runCommand actRaster commandFuel s

end Sys2Proof.Machine
end

