-- ==== Sys2Proof/Machine/Dispatch.lean ====
section
/-! DEFINITION. The meaning of each command: exec i s runs command i from the state's sequencer position to its end, as the
steps of 60_exceptions.md R300 with no host access between them; it ends earlier only where the frame sink is silent (R361). -/
namespace Sys2Proof.Machine

def exec (i : Instr) (s : State) : Host.Outcome State Fault Refusal :=
  match i with
  | .nop => Sys2Proof.Machine.execNop s
  | .validate => Sys2Proof.Machine.execValidate s
  | .clrerr => Sys2Proof.Machine.execClrerr s
  | .tmdec word => Sys2Proof.Machine.execTmdec word s
  | .tmfetch mt ent => Sys2Proof.Machine.execTmfetch mt ent s
  | .pixidx tile row col => Sys2Proof.Machine.execPixidx tile row col s
  | .palres sel idx => Sys2Proof.Machine.execPalres sel idx s
  | .mtbuild mt => Sys2Proof.Machine.execMtbuild mt s
  | .raster => Sys2Proof.Machine.execRaster s

end Sys2Proof.Machine
end

