-- ==== Sys2Proof/Machine/HostPort.lean ====
section
/-! DEFINITION. The host's two ports: the register port (10_state.md R23 to R36) and the snapshot port (20_memory.md R61,
R62). -/
namespace Sys2Proof.Machine

/-- The nine registers of R23. -/
inductive Reg where
  | ctrl
  | status
  | cmd
  | snapSize
  | fmtIdx
  | resEntry
  | resIndex
  | resRgb
  | errAddr
  deriving DecidableEq, Repr

/-- The register at an offset of the window (R23); none at a reserved offset (R36), at one that is no multiple of 4, or
beyond the window (R24). -/
def regAt : Nat → Option Reg
  | 0x00 => some .ctrl
  | 0x04 => some .status
  | 0x08 => some .cmd
  | 0x0C => some .snapSize
  | 0x10 => some .fmtIdx
  | 0x14 => some .resEntry
  | 0x18 => some .resIndex
  | 0x1C => some .resRgb
  | 0x20 => some .errAddr
  | _ => none

/-- The register a 32-bit access at an offset reaches (R24). -/
def regTarget (width off : Nat) : Option Reg :=
  if width = 32 then regAt off else none

/-- A register read (R23, R24): CTRL and CMD read 0 (R25, R28), reserved bits read 0 (R31 to R34). No side effect (R73). -/
def readReg (r : Reg) (s : State) : Word :=
  match r with
  | .ctrl => 0#32
  | .status => s.status.toWord
  | .cmd => 0#32
  | .snapSize => s.snapSize
  | .fmtIdx => s.fmtIdx &&& 0x0000000F#32
  | .resEntry => s.resEntry &&& 0x0000FFFF#32
  | .resIndex => s.resIndex &&& 0x0000000F#32
  | .resRgb => s.resRgb &&& 0x00FFFFFF#32
  | .errAddr => s.errAddr

/-- A CTRL write (R25): bit 0 = 1 is a soft reset, anything else does nothing. -/
def writeCtrl (v : Word) (s : State) : State :=
  if v.getLsbD 0 then s.softReset else s

/-- A CMD write (R28): accepted when idle (R301), dropped with CMD_OVF while BUSY. -/
def writeCmd (w : Word) (s : State) : State :=
  if s.status.busy then { s with status := s.status.setCmdOvf } else s.accept w

/-- A SNAP_SIZE write (R29, R62). -/
def writeSnapSize (v : Word) (s : State) : State :=
  if s.status.busy then { s with status := s.status.setWlock }
  else { s with snapSize := v, status := s.status.setValid false }

/-- A snapshot-port write below SNAP_MAX (R62). -/
def writeSnap (off : Nat) (v : Byte) (s : State) : State :=
  if s.status.busy then { s with status := s.status.setWlock }
  else { s with snap := s.snap.set off v, status := s.status.setValid false }

/-- A register write; one to a read-only register is accepted and ignored (R24). -/
def writeReg (r : Reg) (v : Word) (s : State) : State :=
  match r with
  | .ctrl => writeCtrl v s
  | .cmd => writeCmd v s
  | .snapSize => writeSnapSize v s
  | .status => s
  | .fmtIdx => s
  | .resEntry => s
  | .resIndex => s
  | .resRgb => s
  | .errAddr => s

/-- The port's answer goes to the host. -/
def State.answer (r : Reply) (s : State) : State :=
  { s with replies := r :: s.replies }

/-- One host access. An invalid one gets a bus error and changes nothing (R24, R36, R61). -/
def hostAccess (a : Access) (s : State) : State :=
  match a with
  | .regRead width off =>
    match regTarget width off with
    | some r => s.answer (.word (readReg r s))
    | none => s.answer .busError
  | .regWrite width off v =>
    match regTarget width off with
    | some r => (writeReg r v s).answer .accepted
    | none => s.answer .busError
  | .snapRead off =>
    if off < s.cfg.val.snapMax then s.answer (.byte (s.snapByte off)) else s.answer .busError
  | .snapWrite off v =>
    if off < s.cfg.val.snapMax then (writeSnap off v s).answer .accepted else s.answer .busError

end Sys2Proof.Machine
end

