-- ==== Sys2Proof/Machine/Sequencer.lean ====
section
/-! DEFINITION. The core one step at a time (60_exceptions.md R300): the next action of the command in flight, performed. -/
namespace Sys2Proof.Machine

/-- The next action of a command. -/
def action (i : Instr) (s : State) : Action :=
  match i with
  | .nop => actNop s
  | .validate => actValidate s
  | .clrerr => actClrerr s
  | .tmdec word => actTmdec word s
  | .tmfetch mt ent => actTmfetch mt ent s
  | .pixidx tile row col => actPixidx tile row col s
  | .palres sel idx => actPalres sel idx s
  | .mtbuild mt => actMtbuild mt s
  | .raster => actRaster s

/-- One step of the core for a command: a memory event, its completion or its abort (R300). -/
def coreStep (i : Instr) (s : State) : Result :=
  perform (action i s) s

/-- The only step after acceptance of a word that is no command (R303, R315). -/
def illegalStep (s : State) : State :=
  s.raise .illegalCommand 0

end Sys2Proof.Machine
end

