-- ==== Sys2Proof/Machine/Moves.lean ====
section
/-! DEFINITION. What each move does (00_scope.md R16, 60_exceptions.md R300): a host access, one step of the core, the core
to its command's end, a poll of the host's WAIT loop, power-on. -/
namespace Sys2Proof.Machine

/-- The core does `f` for the command in the latch: nothing while idle (R334), the abort of R303 for an illegal word. -/
def withLatched (f : Instr → State → Result) (s : State) : Result :=
  match s.latch with
  | none => .next s
  | some w =>
    match decode w with
    | .ok i => f i s
    | .error _ => .next (illegalStep s)

/-- One step of the core. -/
def coreMove (s : State) : Result :=
  withLatched coreStep s

/-- The core runs until its command has ended or it waits for a silent sink. -/
def runMove (s : State) : Result :=
  withLatched exec s

/-- What stands between a poll of WAIT that read BUSY = 1 and the next poll. Log 16. -/
def nextPoll : List Nat → List Move
  | [] => [.run, .wait []]
  | n :: gaps => List.replicate n .core ++ [.wait gaps]

/-- One poll of WAIT: `R32 STATUS; if bit 0 of the value read is 1, goto loop` (30_encoding.md R114). -/
def waitMove (gaps : List Nat) (s : State) : State :=
  let t := hostAccess (.regRead 32 0x04) s
  if (readReg .status s).getLsbD 0 then { t with sched := nextPoll gaps ++ t.sched } else t

/-- One move. -/
def move (m : Move) (s : State) : Result :=
  match m with
  | .host a => .next (hostAccess a s)
  | .core => coreMove s
  | .run => runMove s
  | .wait gaps => .next (waitMove gaps s)
  | .powerOn => .next s.powerCycle

/-- The next move: the head of the schedule; with none left the core runs on, for no one is there to see it stop between. -/
def nextMove (s : State) : Result :=
  match s.sched with
  | [] => runMove s
  | m :: rest => move m { s with sched := rest }

/-- The state in which the very next step runs the command word `w`: the word is accepted (R301) and the core's run is the
next move. It stands for the host's CMD write. Log 21. -/
def State.issued (w : Word) (s : State) : State :=
  { s.accept w with sched := .run :: s.sched }

end Sys2Proof.Machine
end

