-- ==== Sys2Proof/Machine/Step.lean ====
section
/-! DEFINITION. One step of the machine, and the state that runs a given command word next. -/
namespace Sys2Proof.Machine

/-- One step: the next move of the schedule (60_exceptions.md R300, 20_memory.md R77). -/
def step (s : State) : Host.Outcome State Fault Refusal :=
  nextMove s

/-- `s` with a command word issued, so that the very next step runs it. The block fetches nothing (10_state.md R22): this
stands for the host's write to CMD, whose bits above `nbits` are 0. -/
def State.withFetchWord (s : State) (nbits w : Nat) : State :=
  s.issued (BitVec.ofNat 32 (w % 2 ^ nbits))

end Sys2Proof.Machine
end

