-- ==== Sys2Proof/Machine/Assembler.lean ====
section
/-! DEFINITION. The assembler syntax of 30_encoding.md R113, on a line given as its characters: one command a line, operands
in decimal or `0x` hexadecimal separated by commas, `;` starts a comment. Log 26. -/
namespace Sys2Proof.Machine

/-- Why a line is no command. An operand outside its range is an assembly error and has no encoding (R113). -/
inductive AsmError where
  | unknownMnemonic
  | badOperand
  | wrongOperandCount
  | outOfRange
  deriving DecidableEq, Repr

def isBlank (c : Char) : Bool := c == ' ' || c == '\t'

def digitValue (c : Char) : Option Nat :=
  if '0'.toNat ≤ c.toNat ∧ c.toNat ≤ '9'.toNat then some (c.toNat - '0'.toNat)
  else if 'a'.toNat ≤ c.toNat ∧ c.toNat ≤ 'f'.toNat then some (c.toNat - 'a'.toNat + 10)
  else if 'A'.toNat ≤ c.toNat ∧ c.toNat ≤ 'F'.toNat then some (c.toNat - 'A'.toNat + 10)
  else none

/-- The number whose digits, most significant first, follow those of `acc`. -/
def digits (radix : Nat) : Nat → List Char → Option Nat
  | acc, [] => some acc
  | acc, c :: cs =>
    match digitValue c with
    | some d => if d < radix then digits radix (acc * radix + d) cs else none
    | none => none

/-- A number in decimal or `0x` hexadecimal. -/
def number : List Char → Option Nat
  | '0' :: 'x' :: c :: cs => digits 16 0 (c :: cs)
  | c :: cs => digits 10 0 (c :: cs)
  | [] => none

def trim (cs : List Char) : List Char :=
  ((cs.dropWhile isBlank).reverse.dropWhile isBlank).reverse

/-- The pieces between commas. -/
def splitCommas : List Char → List (List Char)
  | [] => [[]]
  | c :: cs =>
    if c == ',' then [] :: splitCommas cs
    else
      match splitCommas cs with
      | p :: ps => (c :: p) :: ps
      | [] => [[c]]

/-- The operand list of a line: empty, or numbers separated by commas. -/
def operandList (cs : List Char) : Option (List Nat) :=
  match trim cs with
  | [] => some []
  | t => (splitCommas t).mapM fun p => number (trim p)

/-- A mnemonic with its operands in the order of R113. -/
def commandOf (mnemonic : List Char) (ops : List Nat) : Except AsmError Instr :=
  if mnemonic = ['N', 'O', 'P'] then
    match ops with | [] => .ok .nop | _ => .error .wrongOperandCount
  else if mnemonic = ['V', 'A', 'L', 'I', 'D', 'A', 'T', 'E'] then
    match ops with | [] => .ok .validate | _ => .error .wrongOperandCount
  else if mnemonic = ['C', 'L', 'R', 'E', 'R', 'R'] then
    match ops with | [] => .ok .clrerr | _ => .error .wrongOperandCount
  else if mnemonic = ['T', 'M', 'D', 'E', 'C'] then
    match ops with | [w] => .ok (.tmdec w) | _ => .error .wrongOperandCount
  else if mnemonic = ['T', 'M', 'F', 'E', 'T', 'C', 'H'] then
    match ops with | [mt, ent] => .ok (.tmfetch mt ent) | _ => .error .wrongOperandCount
  else if mnemonic = ['P', 'I', 'X', 'I', 'D', 'X'] then
    match ops with | [tile, row, col] => .ok (.pixidx tile row col) | _ => .error .wrongOperandCount
  else if mnemonic = ['P', 'A', 'L', 'R', 'E', 'S'] then
    match ops with | [sel, idx] => .ok (.palres sel idx) | _ => .error .wrongOperandCount
  else if mnemonic = ['M', 'T', 'B', 'U', 'I', 'L', 'D'] then
    match ops with | [mt] => .ok (.mtbuild mt) | _ => .error .wrongOperandCount
  else if mnemonic = ['R', 'A', 'S', 'T', 'E', 'R'] then
    match ops with | [] => .ok .raster | _ => .error .wrongOperandCount
  else .error .unknownMnemonic

/-- The command of a line, or none for a line that holds only blanks and a comment. -/
def parseLine (line : List Char) : Except AsmError (Option Instr) :=
  let code := trim (line.takeWhile (· != ';'))
  if code = [] then .ok none
  else
    match operandList (code.dropWhile (fun c => !isBlank c)) with
    | none => .error .badOperand
    | some ops =>
      match commandOf (code.takeWhile (fun c => !isBlank c)) ops with
      | .error e => .error e
      | .ok i => if i.wf then .ok (some i) else .error .outOfRange

/-- The word a line assembles to (R113). -/
def assembleLine (line : List Char) : Except AsmError (Option Word) :=
  match parseLine line with
  | .ok i => .ok (i.map encode)
  | .error e => .error e

end Sys2Proof.Machine
end

