-- ==== Sys2Proof/Machine/HostProgram.lean ====
section
/-! DEFINITION. The host-program syntax of 30_encoding.md R114 as schedules: W32, R32, W8, R8, CMD and the pseudo-instructions
WAIT, RUN, LOAD, FILL and SRST with the expansions R114 gives. Where the core's steps fall among the accesses of an expansion
is open (60_exceptions.md R300, 70_reset_and_hazards.md R360): DESIGN CHOICE, logs 16 and 27. -/
namespace Sys2Proof.Machine

/-- The offset of a register, by name (10_state.md R23). -/
def Reg.offset : Reg → Nat
  | .ctrl => 0x00
  | .status => 0x04
  | .cmd => 0x08
  | .snapSize => 0x0C
  | .fmtIdx => 0x10
  | .resEntry => 0x14
  | .resIndex => 0x18
  | .resRgb => 0x1C
  | .errAddr => 0x20

namespace HostProgram

/-- `W32 <REG>, <value>`. -/
def w32 (r : Reg) (v : Word) : List Move := [.host (.regWrite 32 r.offset v)]

/-- `R32 <REG>`. -/
def r32 (r : Reg) : List Move := [.host (.regRead 32 r.offset)]

/-- `W8 SNAP[<a>], <byte>`. -/
def w8 (a : Nat) (v : Byte) : List Move := [.host (.snapWrite a v)]

/-- `R8 SNAP[<a>]`. -/
def r8 (a : Nat) : List Move := [.host (.snapRead a)]

/-- `CMD <command>`. -/
def cmd (i : Instr) : List Move := w32 .cmd (encode i)

/-- `WAIT`: polls STATUS until bit 0 of the value read is 0; for ever where the command hangs. How many steps the core
takes between two polls is the input `gaps`. DESIGN CHOICE, log 16. -/
def wait (gaps : List Nat) : List Move := [.wait gaps]

/-- `RUN <command>`. How many steps the core takes between the CMD write and WAIT's first poll is open (R300, R360): it is
the input `steps`. DESIGN CHOICE, log 27. -/
def run (i : Instr) (steps : Nat) (gaps : List Nat) : List Move := cmd i ++ List.replicate steps .core ++ wait gaps

/-- `LOAD <a>, [b0, …]`, its writes with no step of the core between them. DESIGN CHOICE, log 27. -/
def load (a : Nat) : List Byte → List Move
  | [] => []
  | b :: bs => w8 a b ++ load (a + 1) bs

/-- `FILL <a>, <n>, <b>`, its writes with no step of the core between them. DESIGN CHOICE, log 27. -/
def fill (a n : Nat) (b : Byte) : List Move := load a (List.replicate n b)

/-- `SRST`. -/
def srst : List Move := w32 .ctrl 1#32

end HostProgram

end Sys2Proof.Machine
end

