-- ==== Sys2Proof/Safety.lean ====
section
/-! DEFINITION. The terms claims are stated in: what a legal state is, when a read is readable, and the frame that the rules
define for a snapshot (45_tileset_rasterizer.md R251), written from the snapshot alone. -/
namespace Sys2Proof

/-! ### What a command touches -/

/-- Commands that write to the frame sink. -/
def Instr.frame : Instr → Bool
  | .nop => false
  | .validate => false
  | .clrerr => false
  | .tmdec _ => false
  | .tmfetch _ _ => false
  | .pixidx _ _ _ => false
  | .palres _ _ => false
  | .mtbuild _ => true
  | .raster => true

/-- How many bytes the one SnapRead of a command reads (20_memory.md R71); none for a command without one. -/
def Instr.readBytes : Instr → Option Nat
  | .nop => none
  | .validate => none
  | .clrerr => none
  | .tmdec _ => none
  | .tmfetch _ _ => some 2
  | .pixidx _ _ _ => some 32
  | .palres _ idx => if idx = 0 then none else some 256
  | .mtbuild _ => none
  | .raster => none

/-- The metatiles a frame command emits. -/
def Instr.emits (i : Instr) (mt : Nat) : Prop :=
  match i with
  | .nop => False
  | .validate => False
  | .clrerr => False
  | .tmdec _ => False
  | .tmfetch _ _ => False
  | .pixidx _ _ _ => False
  | .palres _ _ => False
  | .mtbuild m => mt = m
  | .raster => mt < 256

end Sys2Proof

namespace Sys2Proof.Machine

/-! ### Legal states -/

/-- The legal combinations of STATUS (10_state.md R26). -/
structure Status.Legal (f : Status) : Prop where
  busy : f.busy = true → f.done = false ∧ f.err = false
  done : f.done = true → f.err = false ∧ f.errCode = 0#4
  err : f.err = true → f.errCode ∈ [1#4, 2#4, 3#4, 4#4, 5#4]
  noErr : f.err = false → f.errCode = 0#4

/-- A cell as the read phase leaves it (44_metatile_combiner.md R232). -/
def Cell.Legal (c : Cell) : Prop :=
  c.word < 2 ^ 16 ∧ c.record.length = 32

/-- The positions a command's reference sequence goes through (10_state.md R38, 60_exceptions.md R306). -/
def Pos.Fits (i : Instr) : Pos → Prop
  | .start => True
  | .got bytes => i.readBytes = some bytes.length
  | .reading pal mt cells => i.emits mt ∧ pal.length = 256 ∧ cells.length < 16 ∧ ∀ c ∈ cells, c.Legal
  | .record pal mt cells word =>
    i.emits mt ∧ pal.length = 256 ∧ cells.length < 16 ∧ (∀ c ∈ cells, c.Legal) ∧ word < 2 ^ 16
  | .writing pal mt cells n =>
    i.emits mt ∧ pal.length = 256 ∧ cells.length = 16 ∧ (∀ c ∈ cells, c.Legal) ∧ n < 1024
  | .emitted => i.frame = true
  | .failed e _ =>
    (e = .outOfRange ∧ (i.readBytes.isSome = true ∨ i.frame = true)) ∨ (e = .outputWriteFailure ∧ i.frame = true)

/-- While a command is in flight: no memory event without VALID (40_control.md R143), a position of that command, and
FRAME_VALID = 0 under a frame command (R235). -/
def State.InFlightOk (s : State) (w : Word) : Prop :=
  s.status.busy = true ∧ (s.pos ≠ .start → s.status.valid = true) ∧ (isFrameWord w = true → s.status.frameValid = false) ∧
    match decode w with
    | .ok i => s.pos.Fits i
    | .error _ => s.pos = .start

/-- The invariant of the block. -/
structure State.Inv (s : State) : Prop where
  /-- R26. -/
  status : s.status.Legal
  /-- R20 (c), R39, R42: a latch and a position exist exactly while BUSY. -/
  idle : s.latch = none → s.status.busy = false ∧ s.pos = .start
  inFlight : ∀ w, s.latch = some w → s.InFlightOk w
  /-- R37, R62, R64: while VALID, FMT_IDX names the format whose size is SNAP_SIZE. -/
  valid : s.status.valid = true → ∃ f, s.cfg.val.formats[s.fmtIdx.toNat]? = some f ∧ f.size = s.snapSize.toNat
  /-- R24, R31 to R34: reserved bits are 0. -/
  reserved : s.fmtIdx.toNat < 2 ^ 4 ∧ s.resEntry.toNat < 2 ^ 16 ∧ s.resIndex.toNat < 2 ^ 4 ∧ s.resRgb.toNat < 2 ^ 24
  /-- R30: the snapshot memory is in canonical form and holds bytes below SNAP_MAX only. -/
  snapWf : s.snap.wf = true
  snapBound : ∀ c ∈ s.snap, c.1 < s.cfg.val.snapMax

/-! ### The order of a RASTER's pixels -/

/-- The frame index of the k-th pixel RASTER writes: metatile by metatile, row-major inside (45_tileset_rasterizer.md
R253). -/
def rasterIndex (k : Nat) : Nat :=
  frameIndex (k / 1024) (k % 1024 / 32) (k % 32)

/-- How many pixels the RASTER in flight has had accepted so far. -/
def State.rasterCount (s : State) : Option Nat :=
  match s.latch with
  | none => none
  | some w =>
    if decode w = .ok .raster then
      match s.pos with
      | .reading _ mt _ => some (1024 * mt)
      | .record _ mt _ _ => some (1024 * mt)
      | .writing _ mt _ n => some (1024 * mt + n)
      | .emitted => some 262144
      | _ => none
    else none

/-- The newest pixels the sink accepted are, newest first, the first `k` of RASTER's. -/
def State.NewestAreRaster (s : State) (k : Nat) : Prop :=
  ((List.range k).map rasterIndex).reverse <+: s.frame.map Pixel.index

/-- FRAME_VALID = 1 means that a RASTER completed, the sink accepted all 262144 of its pixels, and none since (R254); while
a RASTER runs, that it has had accepted exactly the pixels its position says (R253). -/
def State.FrameInv (s : State) : Prop :=
  (s.status.frameValid = true → s.NewestAreRaster 262144) ∧ ∀ k, s.rasterCount = some k → s.NewestAreRaster k

/-! ### Readable snapshots -/

/-- A SnapRead(off, n) that returns bytes: in range (20_memory.md R64), and on a build that takes `fault` every byte written
(70_reset_and_hazards.md R343). -/
def State.Readable (s : State) (off n : Nat) : Prop :=
  off + n ≤ s.snapSize.toNat ∧
    (s.cfg.val.unwrittenSnapRead = .value ∨ ∀ k, k < n → (s.snap.get? (off + k)).isSome = true)

/-- Tilemap word j of metatile i, from its two stored bytes (20_memory.md R70 a). -/
def State.tilemapWord (s : State) (i j : Nat) : Nat :=
  word16 (s.snapByte (s.tilemapOffset i j)).toNat (s.snapByte (s.tilemapOffset i j + 1)).toNat

/-- The 32 reads of a metatile return bytes (44_metatile_combiner.md R232). -/
def State.MetatileReadable (s : State) (i : Nat) : Prop :=
  ∀ j, j < 16 → s.Readable (s.tilemapOffset i j) 2 ∧
    s.Readable (s.recordOffset (s.tilemapWord i j &&& 0x03FF)) 32

/-! ### The frame of a snapshot -/

/-- `frame(Y, X)` in the expanded form of R251. -/
def State.frameColour (s : State) (Y X : Nat) : RGB :=
  let i := 16 * (Y / 32) + X / 32
  let j := 4 * (Y % 32 / 8) + X % 32 / 8
  let w := s.tilemapWord i j
  let record := s.snapBytes (s.recordOffset (w &&& 0x03FF)) 32
  resolve (s.snapBytes s.paletteOffset 256) ((w &&& 0x1C00) >>> 10)
    (pixelIndex s.cfg.val.planePairSwapped record (Y % 8) (X % 8))

/-- The frame pixel at index p with the colour the rules define for it. -/
def State.framePixel (s : State) (p : Nat) : Pixel :=
  ⟨p, s.frameColour (p / 512) (p % 512)⟩

/-- The first n pixels of metatile i, in the order MTBUILD and RASTER write them (44_metatile_combiner.md R236). -/
def State.metatilePixels (s : State) (i n : Nat) : List Pixel :=
  (List.range n).map fun k => s.framePixel (frameIndex i (k / 32) (k % 32))

/-- The pixel the sink last accepted at an index. -/
def State.sinkPixel (s : State) (p : Nat) : Option RGB :=
  (s.frame.find? fun q => q.index == p).map Pixel.colour

/-! ### Safe runs -/

/-- A step that does not stop: it answers a next state. On a build that takes `value` every step is safe. -/
def State.StepSafe (s : State) : Prop :=
  ∃ t, step s = .next t

end Sys2Proof.Machine
end

