-- ==== Sys2Proof/Certificates/Slice0/Obligations.lean ====
section
/-! DEFINITION. The statements for the provers, in the terms of Safety.lean and of the model's own state. An instruction's
result is written out as the state it leads to, not through the model's shared operations. -/

open Sys2Proof Sys2Proof.Machine

/-! ### Encoding -/

/-- 30_encoding.md R102 to R113: no bit of an encoding is dropped. -/
def Obligations.DecodeInvertsEncode : Prop :=
  ∀ i : Instr, i.wf = true → decode (encode i) = .ok i

/-- 30_encoding.md R108, R111: each legal word has one meaning, whose operands fit their fields. -/
def Obligations.EncodeInvertsDecode : Prop :=
  ∀ (w : Word) (i : Instr), decode w = .ok i → i.wf = true ∧ encode i = w

/-- R110, R111: a word decodes to the row it matches, and no two rows match the same word. -/
def Obligations.DecodeIsTheMatchingRow : Prop :=
  (∀ (w : Word) (i : Instr), decode w = .ok i ↔
    ∃ r ∈ opcodeTable, w &&& r.mask = r.matchWord ∧ i = r.operands w) ∧
  ∀ w : Word, ∀ r ∈ opcodeTable, ∀ r' ∈ opcodeTable,
    w &&& r.mask = r.matchWord → w &&& r'.mask = r'.matchWord → r.mnemonic = r'.mnemonic

/-- Whether a word is one of the illegal encodings of R112: OPC none of the nine, or a reserved bit of its format (R102 to
R107) nonzero. -/
def Sys2Proof.Machine.illegalEncoding (w : Word) : Prop :=
  (field w 31 24 ∉ [0x00, 0x01, 0x02, 0x10, 0x11, 0x20, 0x30, 0x40, 0x50]) ∨
  (field w 31 24 ∈ [0x00, 0x01, 0x02, 0x50] ∧ field w 23 0 ≠ 0) ∨
  (field w 31 24 ∈ [0x10, 0x20] ∧ field w 23 16 ≠ 0) ∨
  (field w 31 24 = 0x11 ∧ field w 23 12 ≠ 0) ∨
  (field w 31 24 = 0x30 ∧ field w 23 7 ≠ 0) ∨
  (field w 31 24 = 0x40 ∧ field w 23 8 ≠ 0)

/-- R112, R303, R315: exactly the illegal encodings fail to decode, and the only step after the acceptance of one is the
abort with IllegalCommand, whatever VALID says (R317). -/
def Obligations.IllegalEncodingsAbort : Prop :=
  (∀ w : Word, illegalEncoding w ↔ ¬ ∃ i, decode w = .ok i) ∧
  ∀ (s : State) (w : Word), illegalEncoding w → s.latch = some w → s.sched = [] →
    step s = .next { s with latch := none, pos := .start, errAddr := 0#32
                            status := { s.status with busy := false, err := true, errCode := 4#4 } }

/-- 30_encoding.md R110: words written out from the table's patterns decode to the commands they stand for. -/
def Obligations.WrittenOutWordsDecode : Prop :=
  decode 0x00000000#32 = .ok .nop ∧ decode 0x01000000#32 = .ok .validate ∧ decode 0x02000000#32 = .ok .clrerr ∧
  decode 0x1000E5A3#32 = .ok (.tmdec 0xE5A3) ∧ decode 0x11000403#32 = .ok (.tmfetch 3 4) ∧
  decode 0x2000C405#32 = .ok (.pixidx 5 1 6) ∧ decode 0x3000002E#32 = .ok (.palres 2 14) ∧
  decode 0x40000011#32 = .ok (.mtbuild 17) ∧ decode 0x50000000#32 = .ok .raster

/-- R113: what a line assembles to is a command with every operand in range; an operand outside its range has no encoding. -/
def Obligations.AssembledLinesDecode : Prop :=
  ∀ (line : List Char) (w : Word), assembleLine line = .ok (some w) →
    ∃ i, parseLine line = .ok (some i) ∧ i.wf = true ∧ decode w = .ok i

/-! ### Reset and invariants -/

/-- 10_state.md R42: what power-on and soft reset leave. -/
def Obligations.ResetsLeaveResetValues : Prop :=
  ∀ (s t : State) (m : Move) (rest : List Move), s.sched = m :: rest →
    (m = .powerOn ∨ ∃ v : Word, v.getLsbD 0 = true ∧ m = .host (.regWrite 32 0x00 v)) → step s = .next t →
    (∀ r : Reg, readReg r t = 0#32) ∧
    t.status = { busy := false, done := false, valid := false, err := false, errCode := 0#4, frameValid := false
                 cmdOvf := false, wlock := false } ∧
    t.snapSize = 0#32 ∧ t.fmtIdx = 0#32 ∧ t.resEntry = 0#32 ∧ t.resIndex = 0#32 ∧ t.resRgb = 0#32 ∧ t.errAddr = 0#32 ∧
    t.latch = none ∧ t.pos = .start ∧
    (m = .powerOn → ∀ a, t.snap.get? a = none) ∧ (m ≠ .powerOn → ∀ a, t.snapByte a = s.snapByte a) ∧
    t.frame = s.frame ∧ t.cfg = s.cfg

/-- 70_reset_and_hazards.md R341: a soft reset is accepted whether or not BUSY, always answers a next state, stops the
command with no error, and neither CMD_OVF nor WLOCK is set. The clause about the sink's answer is how the model says that
an outstanding answer is ignored (log 8). -/
def Obligations.SoftResetStopsTheCommand : Prop :=
  ∀ (s : State) (v : Word) (rest : List Move), v.getLsbD 0 = true →
    s.sched = .host (.regWrite 32 0x00 v) :: rest →
    ∃ t, step s = .next t ∧ t.latch = none ∧ t.pos = .start ∧ t.status.toWord = 0#32 ∧ t.errAddr = 0#32 ∧
      t.snap = s.snap ∧ t.frame = s.frame ∧ t.sched = rest ∧
      ((∃ pal mt cells n, s.pos = .writing pal mt cells n) → t.sink = s.sink.tail) ∧
      ((¬ ∃ pal mt cells n, s.pos = .writing pal mt cells n) → t.sink = s.sink)

/-- 10_state.md R26, R37, R42: the invariant holds after power-on, on every build. -/
def Obligations.InvHoldsAfterPowerOn : Prop :=
  (∀ (c : Build) (n : Nat), (State.powerOn c n).Inv ∧ (State.powerOn c n).FrameInv) ∧
  State.reset.Inv ∧ State.reset.FrameInv

/-- The invariant of the block is kept by every step: legal STATUS (R26), a latch and a legal position exactly while BUSY
(R20, R38, R39), VALID only with the matching format (R37, R62), reserved bits 0 (R24), canonical memory below SNAP_MAX. -/
def Obligations.StepKeepsInv : Prop :=
  ∀ s t : State, s.Inv → step s = .next t → t.Inv

/-- 45_tileset_rasterizer.md R254: the meaning of FRAME_VALID is kept by every step. -/
def Obligations.StepKeepsFrameInv : Prop :=
  ∀ s t : State, s.Inv → s.FrameInv → step s = .next t → t.FrameInv

/-! ### Steps -/

/-- 60_exceptions.md R300: a step with a command in flight runs it: to its end where nothing is scheduled or the core is to
run on, by one step of its own where the core is to take one. -/
def Obligations.StepRunsLatchedCommand : Prop :=
  ∀ (s : State) (w : Word) (i : Instr), s.latch = some w → decode w = .ok i →
    (s.sched = [] → step s = exec i s) ∧
    (∀ rest, s.sched = .run :: rest → step s = exec i { s with sched := rest }) ∧
    (∀ rest, s.sched = .core :: rest → step s = coreStep i { s with sched := rest })

/-- 10_state.md R28, R39: a command word issued for the next step is run by it, from the state acceptance leaves (log 21). -/
def Obligations.IssuedCommandRunsNext : Prop :=
  ∀ (s : State) (nbits w : Nat) (i : Instr), decodeTableWord nbits w = some i →
    step (s.withFetchWord nbits w) =
      exec i { s with
        latch := some (BitVec.ofNat 32 (w % 2 ^ nbits)), pos := .start, errAddr := 0#32
        status := { s.status with
          busy := true, done := false, err := false, errCode := 0#4
          frameValid := s.status.frameValid && !i.frame } }

/-- 20_memory.md R77 (a), 60_exceptions.md R334: host accesses take effect one at a time in the order they stand; an idle
block with nothing scheduled stays as it is. -/
def Obligations.StepTakesTheNextMove : Prop :=
  (∀ (s : State) (a : Access) (rest : List Move), s.sched = .host a :: rest →
    step s = .next (hostAccess a { s with sched := rest })) ∧
  (∀ s : State, s.sched = [] → s.latch = none → step s = .next s) ∧
  ∀ (s : State) (m : Move) (rest : List Move), m = .core ∨ m = .run → s.sched = m :: rest → s.latch = none →
    step s = .next { s with sched := rest }

/-- 60_exceptions.md R300, R306: what `exec` does in one step is what the core does one memory event at a time, with no host
access between; a fault is met either way. -/
def Obligations.ExecIsItsCoreSteps : Prop :=
  ∀ (s : State) (w : Word) (i : Instr) (rest : List Move), s.latch = some w → decode w = .ok i → s.sched = [] →
    (∀ t, exec i s = .next t →
      ∃ n, Host.Core.run Sys2Proof.core n ({ s with sched := List.replicate n .core ++ rest } : State) =
        .next ({ t with sched := rest } : State)) ∧
    (∀ r, exec i s = .fault r →
      ∃ n, Host.Core.run Sys2Proof.core n ({ s with sched := List.replicate n .core ++ rest } : State) = .fault r)

/-- 20_memory.md R77 (c), 70_reset_and_hazards.md R353: a step of the core that does not end its command writes no register:
it moves the sequencer position, and what the sink has answered and accepted. -/
def Obligations.ResultsAppearOnlyAtTheEnd : Prop :=
  ∀ (s t : State) (w : Word) (i : Instr), s.latch = some w → coreStep i s = .next t → t.latch ≠ none →
    t = { s with pos := t.pos, sink := t.sink, frame := t.frame }

/-! ### Host ports -/

/-- R301, R302, R235: the acceptance step. -/
def Obligations.IdleCmdWriteIsAccepted : Prop :=
  ∀ (s : State) (w : Word) (rest : List Move), s.status.busy = false →
    s.sched = .host (.regWrite 32 0x08 w) :: rest →
    ∃ fv : Bool, ((∃ mt, decode w = .ok (.mtbuild mt)) ∨ decode w = .ok .raster → fv = false) ∧
      (¬ ((∃ mt, decode w = .ok (.mtbuild mt)) ∨ decode w = .ok .raster) → fv = s.status.frameValid) ∧
      step s = .next { s with
        sched := rest, latch := some w, pos := .start, errAddr := 0#32, replies := .accepted :: s.replies
        status := { s.status with
          busy := true, done := false, err := false, errCode := 0#4, frameValid := fv } }

/-- 10_state.md R28: CMD reads 0; a write to it while idle issues the word (R301); one while BUSY is dropped, sets CMD_OVF
and changes nothing else of the block. That a dropped write is answered as accepted is the model's choice (log 14). -/
def Obligations.CmdWriteIssuesOrIsDropped : Prop :=
  (∀ (s : State) (rest : List Move), s.sched = .host (.regRead 32 0x08) :: rest →
    step s = .next { s with sched := rest, replies := .word 0#32 :: s.replies }) ∧
  (∀ (s : State) (w : Word) (rest : List Move), s.status.busy = false →
    s.sched = .host (.regWrite 32 0x08 w) :: rest →
    ∃ t, step s = .next t ∧ t = { s with
      sched := rest, latch := some w, pos := .start, errAddr := 0#32, replies := .accepted :: s.replies
      status := { s.status with
        busy := true, done := false, err := false, errCode := 0#4, frameValid := t.status.frameValid } }) ∧
  ∀ (s : State) (w : Word) (rest : List Move), s.status.busy = true →
    s.sched = .host (.regWrite 32 0x08 w) :: rest →
    step s = .next { s with
      sched := rest, replies := .accepted :: s.replies, status := { s.status with cmdOvf := true } }

/-- 20_memory.md R62: a snapshot write or SNAP_SIZE write is performed and clears VALID when idle, and is dropped with WLOCK
while BUSY. That a dropped write is answered as accepted is the model's choice (log 14). -/
def Obligations.SnapshotWritesAndTheWriteLock : Prop :=
  (∀ (s : State) (a : Nat) (v : Byte) (rest : List Move), s.status.busy = false → a < s.cfg.val.snapMax →
    s.sched = .host (.snapWrite a v) :: rest →
    ∃ m : Memory, m.get? a = some v ∧ (∀ b, b ≠ a → m.get? b = s.snap.get? b) ∧
      step s = .next { s with
        sched := rest, replies := .accepted :: s.replies, snap := m, status := { s.status with valid := false } }) ∧
  (∀ (s : State) (v : Word) (rest : List Move), s.status.busy = false →
    s.sched = .host (.regWrite 32 0x0C v) :: rest →
    step s = .next { s with
      sched := rest, replies := .accepted :: s.replies, snapSize := v, status := { s.status with valid := false } }) ∧
  ∀ (s : State) (a : Access) (rest : List Move), s.status.busy = true → s.sched = .host a :: rest →
    (∃ off v, a = .snapWrite off v ∧ off < s.cfg.val.snapMax) ∨ (∃ v, a = .regWrite 32 0x0C v) →
    step s = .next { s with
      sched := rest, replies := .accepted :: s.replies, status := { s.status with wlock := true } }

/-- 20_memory.md R61: the snapshot port reads SNAP[a] whether or not BUSY, and gives back what was written; an offset at or
above SNAP_MAX gets a bus error. -/
def Obligations.SnapshotPortReads : Prop :=
  (∀ (s : State) (a : Nat) (rest : List Move), s.sched = .host (.snapRead a) :: rest →
    (a < s.cfg.val.snapMax →
      step s = .next { s with sched := rest, replies := .byte (s.snapByte a) :: s.replies }) ∧
    (s.cfg.val.snapMax ≤ a → step s = .next { s with sched := rest, replies := .busError :: s.replies })) ∧
  ∀ (s : State) (a : Nat) (v : Byte) (rest : List Move), s.status.busy = false → a < s.cfg.val.snapMax →
    s.sched = .host (.snapWrite a v) :: .host (.snapRead a) :: rest →
    ∃ t, Host.Core.run Sys2Proof.core 2 s = .next t ∧ (t : State).replies = .byte v :: .accepted :: s.replies

/-- 10_state.md R24, R36, 20_memory.md R61: an invalid access gets a bus error and changes no state. -/
def Obligations.InvalidAccessesChangeNothing : Prop :=
  ∀ (s : State) (a : Access) (rest : List Move), s.sched = .host a :: rest →
    (∃ width off v, (a = .regRead width off ∨ a = .regWrite width off v) ∧
      (width ≠ 32 ∨ off % 4 ≠ 0 ∨ 0x24 ≤ off)) ∨
    (∃ off v, (a = .snapRead off ∨ a = .snapWrite off v) ∧ s.cfg.val.snapMax ≤ off) →
    step s = .next { s with sched := rest, replies := .busError :: s.replies }

/-- The value a read of a register returns, as a number (10_state.md R24 to R35). -/
def Sys2Proof.Machine.registerValue (s : State) : Reg → Nat
  | .ctrl => 0
  | .status => s.status.toWord.toNat
  | .cmd => 0
  | .snapSize => s.snapSize.toNat
  | .fmtIdx => s.fmtIdx.toNat % 2 ^ 4
  | .resEntry => s.resEntry.toNat % 2 ^ 16
  | .resIndex => s.resIndex.toNat % 2 ^ 4
  | .resRgb => s.resRgb.toNat % 2 ^ 24
  | .errAddr => s.errAddr.toNat

/-- 10_state.md R24, 20_memory.md R73: a register read returns the register with its reserved bits 0 and changes no state. -/
def Obligations.RegisterReadsHaveNoSideEffect : Prop :=
  ∀ (s : State) (r : Reg) (rest : List Move), s.sched = .host (.regRead 32 r.offset) :: rest →
    ∃ v : Word, v.toNat = registerValue s r ∧
      step s = .next { s with sched := rest, replies := .word v :: s.replies }

/-- 10_state.md R24, R25: a write to a read-only register is accepted and ignored; a CTRL write with bit 0 = 0 does
nothing. -/
def Obligations.WritesWithoutEffect : Prop :=
  ∀ (s : State) (r : Reg) (v : Word) (rest : List Move), s.sched = .host (.regWrite 32 r.offset v) :: rest →
    r ∈ [Reg.status, .fmtIdx, .resEntry, .resIndex, .resRgb, .errAddr] ∨ (r = .ctrl ∧ v.getLsbD 0 = false) →
    step s = .next { s with sched := rest, replies := .accepted :: s.replies }

/-- 10_state.md R26: where each field of STATUS stands in the word a read returns. -/
def Obligations.StatusWordBits : Prop :=
  ∀ f : Status, f.toWord.getLsbD 0 = f.busy ∧ f.toWord.getLsbD 1 = f.done ∧ f.toWord.getLsbD 2 = f.valid ∧
    f.toWord.getLsbD 3 = f.err ∧ f.toWord.extractLsb' 4 4 = f.errCode ∧ f.toWord.getLsbD 8 = f.frameValid ∧
    f.toWord.getLsbD 9 = f.cmdOvf ∧ f.toWord.getLsbD 10 = f.wlock ∧ ∀ n, 11 ≤ n → f.toWord.getLsbD n = false

/-! ### Commands -/

/-- 40_control.md R140. -/
def Obligations.NopCompletes : Prop :=
  ∀ s : State, exec .nop s = .next { s with
    latch := none, pos := .start, status := { s.status with busy := false, done := true } }

/-- 40_control.md R141, R142, 60_exceptions.md R311: VALIDATE selects the format whose size is SNAP_SIZE, or aborts with
InvalidSize and clears VALID. -/
def Obligations.ValidateSelectsTheFormatOrAborts : Prop :=
  (∀ (s : State) (k : Nat) (f : Format), s.cfg.val.formats[k]? = some f → f.size = s.snapSize.toNat →
    exec .validate s = .next { s with
      latch := none, pos := .start, fmtIdx := BitVec.ofNat 32 k
      status := { s.status with busy := false, done := true, valid := true } }) ∧
  ∀ s : State, (∀ f ∈ s.cfg.val.formats, f.size ≠ s.snapSize.toNat) →
    exec .validate s = .next { s with
      latch := none, pos := .start, errAddr := 0#32
      status := { s.status with busy := false, err := true, errCode := 1#4, valid := false } }

/-- 40_control.md R145. -/
def Obligations.ClrerrCompletes : Prop :=
  ∀ s : State, exec .clrerr s = .next { s with
    latch := none, pos := .start
    status := { s.status with busy := false, done := true, cmdOvf := false, wlock := false } }

/-- 41_tilemap_entry.md R162: RES_ENTRY always equals the operand, zero-extended. -/
def Obligations.TmdecCompletes : Prop :=
  ∀ (s : State) (word : Nat), word < 2 ^ 16 → exec (.tmdec word) s = .next { s with
    latch := none, pos := .start, resEntry := BitVec.ofNat 32 word
    status := { s.status with busy := false, done := true } }

/-- 41_tilemap_entry.md R163, R164: RES_ENTRY holds the little-endian word at BASE + TILEMAP_LA + 32 MT + 2 ENT. -/
def Obligations.TmfetchCompletes : Prop :=
  ∀ (s : State) (f : Format) (mt ent off : Nat), s.pos = .start → s.status.valid = true →
    s.cfg.val.formats[s.fmtIdx.toNat]? = some f → off = f.base + s.cfg.val.tilemapLa + 32 * mt + 2 * ent →
    s.Readable off 2 →
    exec (.tmfetch mt ent) s = .next { s with
      latch := none, pos := .start
      resEntry := BitVec.ofNat 32 ((s.snapByte off).toNat + 256 * (s.snapByte (off + 1)).toNat)
      status := { s.status with busy := false, done := true } }

/-- Bit `7 - col` of a stored byte (42_plane_decoder.md R182). -/
def Sys2Proof.Machine.columnBit (b : Byte) (col : Nat) : Nat :=
  b.toNat / 2 ^ (7 - col) % 2

/-- 42_plane_decoder.md R180 to R186: RES_INDEX from the four stored bytes of the pixel's row, planes 0 to 3 weighted 1, 2,
4, 8; the other pair order exchanges planes 0 and 1, and 2 and 3. -/
def Obligations.PixidxCompletes : Prop :=
  ∀ (s : State) (f : Format) (tile row col off : Nat), row < 8 → col < 8 → s.pos = .start → s.status.valid = true →
    s.cfg.val.formats[s.fmtIdx.toNat]? = some f → off = f.base + s.cfg.val.gfxLa + 32 * tile → s.Readable off 32 →
    ∃ b0 b1 b2 b3 : Nat,
      b0 = columnBit (s.snapByte (off + 2 * row)) col ∧ b1 = columnBit (s.snapByte (off + 2 * row + 1)) col ∧
      b2 = columnBit (s.snapByte (off + 16 + 2 * row)) col ∧ b3 = columnBit (s.snapByte (off + 17 + 2 * row)) col ∧
      exec (.pixidx tile row col) s = .next { s with
        latch := none, pos := .start
        resIndex := BitVec.ofNat 32
          (if s.cfg.val.planePairSwapped then b1 + 2 * b0 + 4 * b3 + 8 * b2 else b0 + 2 * b1 + 4 * b2 + 8 * b3)
        status := { s.status with busy := false, done := true } }

/-- 43_palette_lookup.md R206, R208: index 0 gives the sentinel, whatever the palette and whether or not its region is in
range. -/
def Obligations.PalresSentinel : Prop :=
  ∀ (s : State) (sel : Nat), s.status.valid = true →
    exec (.palres sel 0) s = .next { s with
      latch := none, pos := .start, resRgb := 0x00010101#32
      status := { s.status with busy := false, done := true } }

/-- 43_palette_lookup.md R202 to R206: a nonzero index gives the three scaled channels of the packed colour. -/
def Obligations.PalresCompletes : Prop :=
  ∀ (s : State) (f : Format) (sel idx off packedColour : Nat), sel < 8 → idx < 16 → idx ≠ 0 → s.pos = .start →
    s.status.valid = true → s.cfg.val.formats[s.fmtIdx.toNat]? = some f → off = f.base + s.cfg.val.palLa →
    s.Readable off 256 →
    packedColour = (s.snapByte (off + 2 * (16 * sel + idx))).toNat +
      256 * (s.snapByte (off + 2 * (16 * sel + idx) + 1)).toNat →
    exec (.palres sel idx) s = .next { s with
      latch := none, pos := .start
      resRgb := BitVec.ofNat 32 (packedColour % 32 * 255 / 31 + 2 ^ 8 * (packedColour / 32 % 32 * 255 / 31) +
        2 ^ 16 * (packedColour / 1024 % 32 * 255 / 31))
      status := { s.status with busy := false, done := true } }

/-- 44_metatile_combiner.md R232, R236: MTBUILD writes the metatile's 1024 pixels, row-major, each with the colour the rules
define for its frame position; FRAME_VALID and the result registers stay. -/
def Obligations.MtbuildCompletes : Prop :=
  ∀ (s : State) (mt : Nat) (answers : List SinkAnswer), s.pos = .start → s.status.valid = true →
    s.Readable s.paletteOffset 256 → s.MetatileReadable mt → s.sink = List.replicate 1024 .ok ++ answers →
    exec (.mtbuild mt) s = .next { s with
      latch := none, pos := .start, sink := answers, frame := (s.metatilePixels mt 1024).reverse ++ s.frame
      status := { s.status with busy := false, done := true } }

/-- 45_tileset_rasterizer.md R251, R253, R254: RASTER writes the frame the rules define, metatile by metatile, each pixel
once, and sets FRAME_VALID. -/
def Obligations.RasterCompletes : Prop :=
  ∀ (s : State) (answers : List SinkAnswer), s.pos = .start → s.status.valid = true →
    s.Readable s.paletteOffset 256 → (∀ mt, mt < 256 → s.MetatileReadable mt) →
    s.sink = List.replicate 262144 .ok ++ answers →
    exec .raster s = .next { s with
      latch := none, pos := .start, sink := answers
      frame := ((List.range 262144).map fun k => s.framePixel (rasterIndex k)).reverse ++ s.frame
      status := { s.status with busy := false, done := true, frameValid := true } }

/-- 45_tileset_rasterizer.md R255: after a RASTER that completes the sink holds, at every pixel of the 512×512 frame, the
colour the rules define for it. -/
def Obligations.RasterFillsTheFrame : Prop :=
  ∀ (s : State) (answers : List SinkAnswer), s.pos = .start → s.status.valid = true →
    s.Readable s.paletteOffset 256 → (∀ mt, mt < 256 → s.MetatileReadable mt) →
    s.sink = List.replicate 262144 .ok ++ answers →
    ∃ t, exec .raster s = .next t ∧
      ∀ Y X, Y < 512 → X < 512 → t.sinkPixel (512 * Y + X) = some (s.frameColour Y X)

/-- 60_exceptions.md R312: the memory commands abort with NotValidated while VALID = 0, before any memory event; the others
do not test VALID: they never give that error, and do the same whatever VALID is (VALIDATE writes it). -/
def Obligations.MemoryCommandsNeedValid : Prop :=
  (∀ (s : State) (i : Instr), s.pos = .start → s.status.valid = false →
    (∃ mt ent, i = .tmfetch mt ent) ∨ (∃ tile row col, i = .pixidx tile row col) ∨ (∃ sel idx, i = .palres sel idx) ∨
      (∃ mt, i = .mtbuild mt) ∨ i = .raster →
    exec i s = .next { s with
      latch := none, pos := .start, errAddr := 0#32
      status := { s.status with busy := false, err := true, errCode := 5#4 } }) ∧
  (∀ (s : State) (i : Instr), s.status.errCode = 0#4 →
    i = .nop ∨ i = .validate ∨ i = .clrerr ∨ (∃ word, i = .tmdec word) →
    ∃ t, exec i s = .next t ∧ t.status.errCode ≠ 5#4) ∧
  (∀ (s : State) (i : Instr) (v : Bool), i = .nop ∨ i = .clrerr ∨ (∃ word, i = .tmdec word) →
    ∃ t, exec i s = .next t ∧ t.status.valid = s.status.valid ∧
      exec i { s with status := { s.status with valid := v } } =
        .next { t with status := { t.status with valid := v } }) ∧
  ∀ (s : State) (v : Bool), ∃ t, exec .validate s = .next t ∧
    exec .validate { s with status := { s.status with valid := v } } = .next t

/-- 20_memory.md R64, 60_exceptions.md R313: the first SnapRead of a memory command is out of range: the abort records its
offset; no result register, no pixel. Where the offset has more than 32 bits ERR_ADDR's value is free (log 10). -/
def Obligations.FirstReadOutOfRangeAborts : Prop :=
  ∀ (s : State) (i : Instr) (off n : Nat), s.pos = .start → s.status.valid = true →
    (∃ mt ent, i = .tmfetch mt ent ∧ off = s.tilemapOffset mt ent ∧ n = 2) ∨
      (∃ tile row col, i = .pixidx tile row col ∧ off = s.recordOffset tile ∧ n = 32) ∨
      (∃ sel idx, i = .palres sel idx ∧ idx ≠ 0 ∧ off = s.paletteOffset ∧ n = 256) ∨
      (((∃ mt, i = .mtbuild mt) ∨ i = .raster) ∧ off = s.paletteOffset ∧ n = 256) →
    s.snapSize.toNat < off + n →
    ∃ a : Word, (off < 2 ^ 32 → a.toNat = off) ∧ exec i s = .next { s with
      latch := none, pos := .start, errAddr := a
      status := { s.status with busy := false, err := true, errCode := 2#4 } }

/-- Cell `j` is the first of metatile `i` whose reads cross SNAP_SIZE, at the SnapRead of offset `off`: its tilemap word, or
its record. -/
def Sys2Proof.Machine.State.ReadFailsAt (s : State) (i j off : Nat) : Prop :=
  j < 16 ∧
  (∀ j', j' < j → s.Readable (s.tilemapOffset i j') 2 ∧
    s.Readable (s.recordOffset (s.tilemapWord i j' &&& 0x03FF)) 32) ∧
  ((off = s.tilemapOffset i j ∧ s.snapSize.toNat < off + 2) ∨
    (s.Readable (s.tilemapOffset i j) 2 ∧ off = s.recordOffset (s.tilemapWord i j &&& 0x03FF) ∧
      s.snapSize.toNat < off + 32))

/-- 44_metatile_combiner.md R236: a read of the read phase that crosses SNAP_SIZE aborts MTBUILD before its first
FrameWrite. -/
def Obligations.MtbuildAbortsInItsReadPhase : Prop :=
  ∀ (s : State) (mt j off : Nat), s.pos = .start → s.status.valid = true → s.Readable s.paletteOffset 256 →
    s.ReadFailsAt mt j off →
    ∃ a : Word, (off < 2 ^ 32 → a.toNat = off) ∧ exec (.mtbuild mt) s = .next { s with
      latch := none, pos := .start, errAddr := a
      status := { s.status with busy := false, err := true, errCode := 2#4 } }

/-- 45_tileset_rasterizer.md R253, R257: a read of metatile `i` that crosses SNAP_SIZE aborts RASTER; the sink has accepted
the pixels of the metatiles before it and no other, and FRAME_VALID is not set. -/
def Obligations.RasterAbortsAtTheFirstFailingRead : Prop :=
  ∀ (s : State) (i j off : Nat) (answers : List SinkAnswer), s.pos = .start → s.status.valid = true → i < 256 →
    s.Readable s.paletteOffset 256 → (∀ mt, mt < i → s.MetatileReadable mt) → s.ReadFailsAt i j off →
    s.sink = List.replicate (1024 * i) .ok ++ answers →
    ∃ a : Word, (off < 2 ^ 32 → a.toNat = off) ∧ exec .raster s = .next { s with
      latch := none, pos := .start, errAddr := a, sink := answers
      frame := ((List.range (1024 * i)).map fun k => s.framePixel (rasterIndex k)).reverse ++ s.frame
      status := { s.status with busy := false, err := true, errCode := 2#4 } }

/-- 60_exceptions.md R306, R314, 44_metatile_combiner.md R236: the sink answers err to pixel `n` of MTBUILD: the abort records
its frame index, the sink keeps the `n` pixels before it. -/
def Obligations.MtbuildAbortsAtAFailedWrite : Prop :=
  ∀ (s : State) (mt n : Nat) (answers : List SinkAnswer), s.pos = .start → s.status.valid = true → mt < 256 → n < 1024 →
    s.Readable s.paletteOffset 256 → s.MetatileReadable mt →
    s.sink = List.replicate n .ok ++ .err :: answers →
    exec (.mtbuild mt) s = .next { s with
      latch := none, pos := .start, sink := answers, frame := (s.metatilePixels mt n).reverse ++ s.frame
      errAddr := BitVec.ofNat 32 (frameIndex mt (n / 32) (n % 32))
      status := { s.status with busy := false, err := true, errCode := 3#4 } }

/-- 45_tileset_rasterizer.md R253, R257: the same for RASTER's pixel `k`. -/
def Obligations.RasterAbortsAtAFailedWrite : Prop :=
  ∀ (s : State) (k : Nat) (answers : List SinkAnswer), s.pos = .start → s.status.valid = true → k < 262144 →
    s.Readable s.paletteOffset 256 → (∀ mt, mt ≤ k / 1024 → s.MetatileReadable mt) →
    s.sink = List.replicate k .ok ++ .err :: answers →
    exec .raster s = .next { s with
      latch := none, pos := .start, sink := answers
      frame := ((List.range k).map fun k => s.framePixel (rasterIndex k)).reverse ++ s.frame
      errAddr := BitVec.ofNat 32 (rasterIndex k)
      status := { s.status with busy := false, err := true, errCode := 3#4 } }

/-- 70_reset_and_hazards.md R361: a sink that stops answering leaves MTBUILD in flight for ever: the state it is left in is
its own next state, with the pixels accepted so far and every register as before. -/
def Obligations.SilentSinkHangsMtbuild : Prop :=
  ∀ (s : State) (w : Word) (mt n : Nat), s.latch = some w → decode w = .ok (.mtbuild mt) → s.sched = [] →
    s.pos = .start → s.status.valid = true → n < 1024 → s.Readable s.paletteOffset 256 → s.MetatileReadable mt →
    s.sink = List.replicate n .ok →
    ∃ t, exec (.mtbuild mt) s = .next t ∧ step t = .next t ∧
      t = { s with pos := t.pos, sink := [], frame := (s.metatilePixels mt n).reverse ++ s.frame }

/-- SnapRead(off, n) is in range and covers a byte not written since power-on. -/
def Sys2Proof.Machine.State.ReadsUnwritten (s : State) (off n : Nat) : Prop :=
  off + n ≤ s.snapSize.toNat ∧ ∃ k, k < n ∧ s.snap.get? (off + k) = none

/-- Cell `j` is the first of metatile `i` one of whose reads is not readable, and that read, of offset `off`, is in range and
covers an unwritten byte: its tilemap word, or its record. -/
def Sys2Proof.Machine.State.ReadStopsAt (s : State) (i j off : Nat) : Prop :=
  j < 16 ∧
  (∀ j', j' < j → s.Readable (s.tilemapOffset i j') 2 ∧
    s.Readable (s.recordOffset (s.tilemapWord i j' &&& 0x03FF)) 32) ∧
  ((off = s.tilemapOffset i j ∧ s.ReadsUnwritten off 2) ∨
    (s.Readable (s.tilemapOffset i j) 2 ∧ off = s.recordOffset (s.tilemapWord i j &&& 0x03FF) ∧ s.ReadsUnwritten off 32))

/-- 70_reset_and_hazards.md R343: on a build that takes `fault`, a read of a byte not written since power-on stops the
machine: the first read of a command, and each tilemap word and record that MTBUILD and RASTER reach. -/
def Obligations.UnwrittenReadFaultsWhereTheBuildSaysSo : Prop :=
  (∀ (s : State) (i : Instr) (off n k : Nat), s.pos = .start → s.status.valid = true →
    (∃ mt ent, i = .tmfetch mt ent ∧ off = s.tilemapOffset mt ent ∧ n = 2) ∨
      (∃ tile row col, i = .pixidx tile row col ∧ off = s.recordOffset tile ∧ n = 32) ∨
      (∃ sel idx, i = .palres sel idx ∧ idx ≠ 0 ∧ off = s.paletteOffset ∧ n = 256) ∨
      (((∃ mt, i = .mtbuild mt) ∨ i = .raster) ∧ off = s.paletteOffset ∧ n = 256) →
    off + n ≤ s.snapSize.toNat → s.cfg.val.unwrittenSnapRead = .fault → k < n → s.snap.get? (off + k) = none →
    exec i s = .fault (.unwrittenSnapRead off)) ∧
  (∀ (s : State) (mt j off : Nat), s.pos = .start → s.status.valid = true →
    s.cfg.val.unwrittenSnapRead = .fault → s.Readable s.paletteOffset 256 → s.ReadStopsAt mt j off →
    exec (.mtbuild mt) s = .fault (.unwrittenSnapRead off)) ∧
  ∀ (s : State) (i j off : Nat) (answers : List SinkAnswer), s.pos = .start → s.status.valid = true → i < 256 →
    s.cfg.val.unwrittenSnapRead = .fault → s.Readable s.paletteOffset 256 →
    (∀ mt, mt < i → s.MetatileReadable mt) → s.ReadStopsAt i j off →
    s.sink = List.replicate (1024 * i) .ok ++ answers →
    exec .raster s = .fault (.unwrittenSnapRead off)

/-! ### Frames and whole-machine rules -/

/-- 40_control.md R140, R142, R145, R146: what the control commands leave unchanged. -/
def Obligations.ControlCommandsFrame : Prop :=
  ∀ (s t : State) (i : Instr), i = .nop ∨ i = .validate ∨ i = .clrerr → exec i s = .next t →
    t.cfg = s.cfg ∧ t.snapSize = s.snapSize ∧ t.resEntry = s.resEntry ∧ t.resIndex = s.resIndex ∧ t.resRgb = s.resRgb ∧
    (∀ a, t.snapByte a = s.snapByte a ∧ t.snap.get? a = s.snap.get? a) ∧ t.sink = s.sink ∧ t.frame = s.frame ∧
    t.sched = s.sched ∧ t.replies = s.replies ∧ t.status.frameValid = s.status.frameValid ∧
    (i ≠ .validate → t.fmtIdx = s.fmtIdx ∧ t.errAddr = s.errAddr ∧ t.status.valid = s.status.valid ∧
      t.status.err = s.status.err ∧ t.status.errCode = s.status.errCode) ∧
    (i ≠ .clrerr → t.status.cmdOvf = s.status.cmdOvf ∧ t.status.wlock = s.status.wlock)

/-- R162, R164, R186, R206, 60_exceptions.md R304, R305: what the inspection commands leave unchanged. Each writes its own
result register only, and no result register on an abort. -/
def Obligations.InspectionCommandsFrame : Prop :=
  ∀ (s t : State) (i : Instr), i.frame = false → i ≠ .nop → i ≠ .validate → i ≠ .clrerr → exec i s = .next t →
    t.cfg = s.cfg ∧ t.snapSize = s.snapSize ∧ t.fmtIdx = s.fmtIdx ∧
    (∀ a, t.snapByte a = s.snapByte a ∧ t.snap.get? a = s.snap.get? a) ∧ t.sink = s.sink ∧ t.frame = s.frame ∧
    t.sched = s.sched ∧ t.replies = s.replies ∧
    t.status.valid = s.status.valid ∧ t.status.frameValid = s.status.frameValid ∧
    t.status.cmdOvf = s.status.cmdOvf ∧ t.status.wlock = s.status.wlock ∧
    ((∀ word, i ≠ .tmdec word) → (∀ mt ent, i ≠ .tmfetch mt ent) → t.resEntry = s.resEntry) ∧
    ((∀ tile row col, i ≠ .pixidx tile row col) → t.resIndex = s.resIndex) ∧
    ((∀ sel idx, i ≠ .palres sel idx) → t.resRgb = s.resRgb) ∧
    (s.status.err = false → t.status.err = true →
      t.resEntry = s.resEntry ∧ t.resIndex = s.resIndex ∧ t.resRgb = s.resRgb) ∧
    (s.status.err = false → t.status.err = false → t.errAddr = s.errAddr ∧ t.status.errCode = s.status.errCode)

/-- 44_metatile_combiner.md R236, 45_tileset_rasterizer.md R253, 60_exceptions.md R304, R305: what the frame commands leave
unchanged; MTBUILD never writes FRAME_VALID. From a position of the command itself, every pixel it adds is one of its own. -/
def Obligations.FrameCommandsFrame : Prop :=
  ∀ (s t : State) (i : Instr), i.frame = true → exec i s = .next t →
    t.cfg = s.cfg ∧ t.snapSize = s.snapSize ∧ t.fmtIdx = s.fmtIdx ∧ t.resEntry = s.resEntry ∧
    t.resIndex = s.resIndex ∧ t.resRgb = s.resRgb ∧
    (∀ a, t.snapByte a = s.snapByte a ∧ t.snap.get? a = s.snap.get? a) ∧ t.sched = s.sched ∧ t.replies = s.replies ∧
    t.status.valid = s.status.valid ∧ t.status.cmdOvf = s.status.cmdOvf ∧ t.status.wlock = s.status.wlock ∧
    ((∃ mt, i = .mtbuild mt) → t.status.frameValid = s.status.frameValid) ∧
    (s.status.err = false → t.status.err = true → t.status.frameValid = s.status.frameValid) ∧
    (s.status.err = false → t.status.err = false → t.errAddr = s.errAddr ∧ t.status.errCode = s.status.errCode) ∧
    s.frame <:+ t.frame ∧ t.sink <:+ s.sink ∧
    (s.pos.Fits i → ∃ added, t.frame = added ++ s.frame ∧ ∀ p ∈ added,
      (∀ mt, i = .mtbuild mt → ∃ n, n < 1024 ∧ p.index = frameIndex mt (n / 32) (n % 32)) ∧
      (i = .raster → ∃ k, k < 262144 ∧ p.index = rasterIndex k))

/-- 70_reset_and_hazards.md R361: a command whose memory events are all SnapReads ends. -/
def Obligations.CommandsWithoutWritesEnd : Prop :=
  ∀ (s t : State) (i : Instr), i.frame = false → exec i s = .next t →
    t.latch = none ∧ t.pos = .start ∧ t.status.busy = false

/-- 70_reset_and_hazards.md R361: MTBUILD and RASTER end if the sink answers every FrameWrite: at most 1024 and 262144 of
them. -/
def Obligations.FrameCommandsEndWhileTheSinkAnswers : Prop :=
  ∀ (s t : State) (i : Instr), s.pos = .start →
    ((∃ mt, i = .mtbuild mt) ∧ 1024 ≤ s.sink.length) ∨ (i = .raster ∧ 262144 ≤ s.sink.length) →
    exec i s = .next t → t.latch = none ∧ t.pos = .start ∧ t.status.busy = false

/-- 70_reset_and_hazards.md R343, 60_exceptions.md R316: on a build that takes `value` no command stops the machine, whatever
the data; nor does any step. -/
def Obligations.ValueBuildsNeverStop : Prop :=
  (∀ (s : State) (i : Instr), s.cfg.val.unwrittenSnapRead = .value → ∃ t, exec i s = .next t) ∧
  ∀ s : State, s.cfg.val.unwrittenSnapRead = .value → s.StepSafe

/-- 45_tileset_rasterizer.md R254: nothing but a successful RASTER sets FRAME_VALID. -/
def Obligations.OnlyRasterSetsFrameValid : Prop :=
  ∀ s t : State, step s = .next t → s.status.frameValid = false → t.status.frameValid = true →
    t.status.done = true ∧ ∃ w, s.latch = some w ∧ decode w = .ok .raster

/-- 10_state.md R30: bytes at or above SNAP_SIZE are never returned to the core: whatever they hold, and whether or not they
were written, every command does the same. -/
def Obligations.BytesBeyondSnapSizeAreInvisible : Prop :=
  ∀ (s : State) (i : Instr) (m : Memory), (∀ a, a < s.snapSize.toNat → m.get? a = s.snap.get? a) →
    (∀ t, exec i s = .next t → exec i { s with snap := m } = .next { t with snap := m }) ∧
    ∀ r, exec i s = .fault r → exec i { s with snap := m } = .fault r

/-! ### The functions of the sub-units -/

/-- 20_memory.md R66, R68: byte-swap normalization, byte by byte, and its involution. -/
def Obligations.ByteSwapNormalization : Prop :=
  ∀ s : List Byte, s.length % 2 = 0 →
    (bswap s).length = s.length ∧ (∀ k, k < s.length → (bswap s)[k]? = s[k ^^^ 1]?) ∧ bswap (bswap s) = s

/-- 41_tilemap_entry.md R160, R161: the masks partition the word, and every field is in its range. -/
def Obligations.EntryFieldsPartitionTheWord : Prop :=
  ∀ w : Nat, w < 2 ^ 16 →
    (decodeEntry w).tile < 1024 ∧ (decodeEntry w).pal < 8 ∧
    w = (decodeEntry w).tile + 1024 * (decodeEntry w).pal + 8192 * (decodeEntry w).prio.toNat +
      16384 * (decodeEntry w).hflip.toNat + 32768 * (decodeEntry w).vflip.toNat

/-- 42_plane_decoder.md R185: indices are 0 to 15; a zero record decodes to 0, one of all ones to 15; the four plane bits of
one pixel alone give 15 there, under either pair order. -/
def Obligations.PlaneDecoderProperties : Prop :=
  ∀ (swapped : Bool) (r c : Nat), r < 8 → c < 8 →
    (∀ s : List Byte, pixelIndex swapped s r c ≤ 15) ∧
    pixelIndex swapped (List.replicate 32 0x00#8) r c = 0 ∧ pixelIndex swapped (List.replicate 32 0xFF#8) r c = 15 ∧
    (∀ s : List Byte, s.length = 32 →
      (∀ k ∈ [2 * r, 2 * r + 1, 16 + 2 * r, 17 + 2 * r], byteAt s k / 2 ^ (7 - c) % 2 = 1) →
      pixelIndex swapped s r c = 15)

/-- 43_palette_lookup.md R204, R209: scaling is strictly increasing on 0..31, from 0 to 255. -/
def Obligations.ChannelScaling : Prop :=
  (∀ v v' : Nat, v < v' → v' < 32 → scale v < scale v') ∧ scale 0 = 0 ∧ scale 31 = 255

/-- 43_palette_lookup.md R205, R207, R208: a resolved pixel equals the sentinel exactly when its index is 0, whatever the palette
and the selector. -/
def Obligations.SentinelIsUnique : Prop :=
  ∀ (pal : List Byte) (sel idx : Nat), resolve pal sel idx = ⟨1#8, 1#8, 1#8⟩ ↔ idx = 0

/-- 44_metatile_combiner.md R231: every pixel of a metatile comes from exactly one pixel of exactly one of its 16 sub-tiles,
the one that R230 places there. -/
def Obligations.SubTilePlacementIsABijection : Prop :=
  (∀ y x, y < 32 → x < 32 → entryOfPixel y x < 16 ∧
    y = 8 * (subTilePosition (entryOfPixel y x)).1 + y % 8 ∧ x = 8 * (subTilePosition (entryOfPixel y x)).2 + x % 8) ∧
  ∀ j r c, j < 16 → r < 8 → c < 8 →
    entryOfPixel (8 * (subTilePosition j).1 + r) (8 * (subTilePosition j).2 + c) = j

/-- 45_tileset_rasterizer.md R250, R255: RASTER's 262144 pixel indices are all the indices of the frame, each once, and pixel
`(y, x)` of metatile `i` lies at the metatile's grid position. -/
def Obligations.RasterOrderCoversTheFrame : Prop :=
  (∀ p, p < 262144 → ∃ k, k < 262144 ∧ rasterIndex k = p ∧ ∀ k', k' < 262144 → rasterIndex k' = p → k' = k) ∧
  (∀ k, k < 262144 → rasterIndex k < 262144) ∧
  ∀ i y x, i < 256 → y < 32 → x < 32 →
    frameIndex i y x / 512 = 32 * (metatilePosition i).1 + y ∧ frameIndex i y x % 512 = 32 * (metatilePosition i).2 + x

/-! ### The host's WAIT, and a hung RASTER -/

/-- 30_encoding.md R114: WAIT reads STATUS and goes on only once bit 0 of the value read is 0. How many steps the core takes
between two polls is an input (log 16); where they are not listed the core runs, and WAIT ends if that run ends the command
and polls again if it does not. -/
def Obligations.WaitPollsUntilBusyIsZero : Prop :=
  (∀ (s : State) (gaps : List Nat) (rest : List Move), s.status.busy = false → s.sched = .wait gaps :: rest →
    step s = .next { s with sched := rest, replies := .word s.status.toWord :: s.replies }) ∧
  (∀ (s : State) (n : Nat) (gaps : List Nat) (rest : List Move), s.status.busy = true →
    s.sched = .wait (n :: gaps) :: rest →
    step s = .next { s with
      sched := List.replicate n .core ++ .wait gaps :: rest, replies := .word s.status.toWord :: s.replies }) ∧
  ∀ (s t : State) (w : Word) (i : Instr) (rest : List Move), s.status.busy = true → s.latch = some w →
    decode w = .ok i → s.sched = .wait [] :: rest →
    exec i { s with sched := .wait [] :: rest, replies := .word s.status.toWord :: s.replies } = .next t →
    Host.Core.run Sys2Proof.core 3 s = .next ({ t with
      sched := if t.status.busy then .run :: .wait [] :: rest else rest
      replies := .word t.status.toWord :: t.replies } : State)

/-- 70_reset_and_hazards.md R361: a sink that stops answering leaves RASTER in flight for ever: the state it is left in is its
own next state, with the pixels accepted so far and every register as before. -/
def Obligations.SilentSinkHangsRaster : Prop :=
  ∀ (s : State) (w : Word) (k : Nat), s.latch = some w → decode w = .ok .raster → s.sched = [] →
    s.pos = .start → s.status.valid = true → k < 262144 → s.Readable s.paletteOffset 256 →
    (∀ mt, mt ≤ k / 1024 → s.MetatileReadable mt) → s.sink = List.replicate k .ok →
    ∃ t, exec .raster s = .next t ∧ step t = .next t ∧
      t = { s with
        pos := t.pos, sink := []
        frame := ((List.range k).map fun k => s.framePixel (rasterIndex k)).reverse ++ s.frame }
end

