-- ==== Sys2Proof/Laws/Operands.lean ====
section
/-! SUPPORT. The small laws of the pure functions. -/
namespace Sys2Proof.Machine

@[simp] theorem bswap_nil : bswap [] = [] := by simp [bswap]

@[simp] theorem bswap_cons_cons (a b : Byte) (s : List Byte) : bswap (a :: b :: s) = b :: a :: bswap s := by
  simp [bswap]

@[simp] theorem bswap_length (s : List Byte) : (bswap s).length = s.length := by
  induction s using bswap.induct with
  | case1 a b s ih => simp [ih]
  | case2 s h => unfold bswap; split <;> simp_all

/-- Byte `2k` of the normalized field is the stored byte `2k + 1`. -/
theorem byteAt_bswap_even (s : List Byte) (k : Nat) (h : 2 * k + 1 < s.length) :
    byteAt (bswap s) (2 * k) = byteAt s (2 * k + 1) := by
  induction s using bswap.induct generalizing k with
  | case1 a b s ih =>
    cases k with
    | zero => simp [byteAt]
    | succ k =>
      have := ih k (by simpa using (by simp at h; omega))
      simpa [byteAt, Nat.mul_succ] using this
  | case2 s hs =>
    match s, hs with
    | [], _ => simp at h
    | [a], _ => simp at h
    | a :: b :: s, hs => exact absurd rfl (hs a b s)

/-- Byte `2k + 1` of the normalized field is the stored byte `2k`. -/
theorem byteAt_bswap_odd (s : List Byte) (k : Nat) (h : 2 * k + 1 < s.length) :
    byteAt (bswap s) (2 * k + 1) = byteAt s (2 * k) := by
  induction s using bswap.induct generalizing k with
  | case1 a b s ih =>
    cases k with
    | zero => simp [byteAt]
    | succ k =>
      have := ih k (by simpa using (by simp at h; omega))
      simpa [byteAt, Nat.mul_succ] using this
  | case2 s hs =>
    match s, hs with
    | [], _ => simp at h
    | [a], _ => simp at h
    | a :: b :: s, hs => exact absurd rfl (hs a b s)

theorem byteAt_lt (s : List Byte) (k : Nat) : byteAt s k < 256 := by
  simpa [byteAt] using (s.getD k 0#8).isLt

/-- A 16-bit field is little-endian in storage (20_memory.md R69, R70). -/
theorem fieldWord_eq_word16 (s : List Byte) (k : Nat) (h : 2 * k + 1 < s.length) :
    fieldWord s (2 * k) = word16 (byteAt s (2 * k)) (byteAt s (2 * k + 1)) := by
  rw [fieldWord, byteAt_bswap_even s k h, byteAt_bswap_odd s k h, word16]
  omega

theorem fieldWord_lt (s : List Byte) (k : Nat) : fieldWord s k < 2 ^ 16 := by
  have h0 := byteAt_lt (bswap s) k
  have h1 := byteAt_lt (bswap s) (k + 1)
  rw [fieldWord]
  omega

theorem planeBit_lt (swapped : Bool) (s : List Byte) (p r c : Nat) : planeBit swapped s p r c < 2 := by
  rw [planeBit, Nat.and_one_is_mod]
  omega

/-- Channels are 8 bits wide: no scaled channel is cut. -/
theorem scale_lt (v : Nat) (h : v < 32) : scale v < 256 := by
  rw [scale]
  omega

theorem and_31 (v : Nat) : v &&& 31 = v % 32 :=
  Nat.and_two_pow_sub_one_eq_mod v 5

theorem decodeEntry_tile_lt (w : Nat) : (decodeEntry w).tile < 1024 := by
  show w &&& 0x03FF < 1024
  rw [show w &&& 0x03FF = w % 1024 from Nat.and_two_pow_sub_one_eq_mod w 10]
  omega

end Sys2Proof.Machine
end

