-- ==== Sys2Proof/Laws/Memory.lean ====
section
/-! SUPPORT. The snapshot memory: read after write, and the canonical form every write keeps. -/
namespace Sys2Proof.Machine

@[simp] theorem Memory.get?_nil (a : Nat) : Memory.get? [] a = none := rfl

theorem Memory.get?_cons (k : Nat) (v : Byte) (m : Memory) (a : Nat) :
    Memory.get? ((k, v) :: m) a = if a = k then some v else Memory.get? m a := rfl

theorem Memory.get?_set_same (m : Memory) (a : Nat) (v : Byte) : (m.set a v).get? a = some v := by
  induction m with
  | nil => simp [Memory.set, Memory.get?]
  | cons c m ih =>
    obtain ⟨k, w⟩ := c
    rw [Memory.set]
    split
    · simp [Memory.get?]
    · split
      · simp [Memory.get?]
      · rw [Memory.get?_cons, if_neg ‹_›, ih]

theorem Memory.get?_set_other (m : Memory) (a b : Nat) (v : Byte) (h : b ≠ a) :
    (m.set a v).get? b = m.get? b := by
  induction m with
  | nil => simp [Memory.set, Memory.get?, h]
  | cons c m ih =>
    obtain ⟨k, w⟩ := c
    rw [Memory.set]
    split
    · simp [Memory.get?, h]
    · split
      · subst_vars; simp [Memory.get?, h]
      · simp only [Memory.get?_cons, ih]

/-- In a memory in canonical form every address after the first is greater. -/
theorem Memory.wf_cons (k : Nat) (v : Byte) (m : Memory) :
    Memory.wf ((k, v) :: m) = true ↔ m.wf = true ∧ ∀ c ∈ m, k < c.1 := by
  induction m generalizing k v with
  | nil => simp [Memory.wf]
  | cons c m ih =>
    obtain ⟨b, w⟩ := c
    simp only [Memory.wf, Bool.and_eq_true, decide_eq_true_eq, List.mem_cons, forall_eq_or_imp]
    constructor
    · rintro ⟨hk, h⟩
      exact ⟨h, hk, fun c hc => lt_trans hk (((ih b w).1 h).2 c hc)⟩
    · rintro ⟨h, hk, -⟩
      exact ⟨hk, h⟩

/-- A write adds at most its own address. -/
theorem Memory.mem_set (m : Memory) (a : Nat) (v : Byte) (c : Host.Cell) (h : c ∈ m.set a v) :
    c = (a, v) ∨ c ∈ m := by
  induction m with
  | nil => simpa [Memory.set] using h
  | cons d m ih =>
    obtain ⟨k, w⟩ := d
    rw [Memory.set] at h
    split at h
    · simpa using h
    · split at h
      · have := List.mem_cons.1 h
        rcases this with h | h
        · exact .inl h
        · exact .inr (List.mem_cons_of_mem _ h)
      · rcases List.mem_cons.1 h with h | h
        · exact .inr (h ▸ List.mem_cons_self)
        · exact (ih h).imp_right (List.mem_cons_of_mem _)

theorem Memory.set_wf (m : Memory) (a : Nat) (v : Byte) (h : m.wf = true) : (m.set a v).wf = true := by
  induction m with
  | nil => rfl
  | cons d m ih =>
    obtain ⟨k, w⟩ := d
    have hd := (Memory.wf_cons k w m).1 h
    rw [Memory.set]
    split
    · refine (Memory.wf_cons _ _ _).2 ⟨h, ?_⟩
      rintro c hc
      rcases List.mem_cons.1 hc with rfl | hc
      · assumption
      · exact lt_trans ‹a < k› (hd.2 c hc)
    · split
      · subst_vars
        exact (Memory.wf_cons _ _ _).2 hd
      · refine (Memory.wf_cons _ _ _).2 ⟨ih hd.1, fun c hc => ?_⟩
        rcases Memory.mem_set m a v c hc with rfl | hc
        · show k < a
          omega
        · exact hd.2 c hc

theorem Memory.set_bound (m : Memory) (a : Nat) (v : Byte) (n : Nat) (h : ∀ c ∈ m, c.1 < n) (ha : a < n) :
    ∀ c ∈ m.set a v, c.1 < n := by
  intro c hc
  rcases Memory.mem_set m a v c hc with rfl | hc
  · exact ha
  · exact h c hc

/-- The memory after power-on is in canonical form. -/
theorem reset_snap_wf : State.reset.snap.wf = true := rfl

/-- Every address below the first of a canonical memory is unwritten. -/
theorem Memory.get?_below (m : Memory) (a : Nat) (h : ∀ c ∈ m, a < c.1) : m.get? a = none := by
  induction m with
  | nil => rfl
  | cons c m ih =>
    obtain ⟨k, w⟩ := c
    have hk : a < k := h _ List.mem_cons_self
    rw [Memory.get?_cons, if_neg (by omega), ih fun c hc => h c (List.mem_cons_of_mem _ hc)]

/-- Equal canonical memories are equal data: two that answer every read alike are the same list. -/
theorem Memory.ext_of_get? (m m' : Memory) (h : m.wf = true) (h' : m'.wf = true)
    (heq : ∀ a, m.get? a = m'.get? a) : m = m' := by
  induction m generalizing m' with
  | nil =>
    cases m' with
    | nil => rfl
    | cons c m' => simpa [Memory.get?] using heq c.1
  | cons c m ih =>
    obtain ⟨k, w⟩ := c
    have hd := (Memory.wf_cons k w m).1 h
    cases m' with
    | nil => simpa [Memory.get?] using heq k
    | cons d m' =>
      obtain ⟨k', w'⟩ := d
      have hd' := (Memory.wf_cons k' w' m').1 h'
      have hk : k = k' := by
        by_contra hne
        rcases Nat.lt_or_gt_of_ne hne with hlt | hlt
        · have := heq k
          rw [Memory.get?_cons, if_pos rfl, Memory.get?_below _ k] at this
          · simp at this
          · intro c hc
            rcases List.mem_cons.1 hc with rfl | hc
            · exact hlt
            · exact lt_trans hlt (hd'.2 c hc)
        · have := heq k'
          rw [Memory.get?_below _ k', Memory.get?_cons, if_pos rfl] at this
          · simp at this
          · intro c hc
            rcases List.mem_cons.1 hc with rfl | hc
            · exact hlt
            · exact lt_trans hlt (hd.2 c hc)
      subst hk
      have hw : w = w' := by simpa [Memory.get?] using heq k
      subst hw
      congr 1
      refine ih m' hd.1 hd'.1 fun a => ?_
      by_cases ha : a = k
      · subst ha
        rw [Memory.get?_below m a hd.2, Memory.get?_below m' a hd'.2]
      · simpa [Memory.get?, ha] using heq a

end Sys2Proof.Machine
end

