-- ==== Sys2Proof/Laws/State.lean ====
section
/-! SUPPORT. What each update of the state and of STATUS leaves in each field: one lemma per field per update, so that no
proof unfolds a record update. -/
namespace Sys2Proof.Machine

/-! ### accept -/

@[simp] theorem State.accept_cfg (w : Word) (s : State) : (s.accept w).cfg = s.cfg := rfl
@[simp] theorem State.accept_status (w : Word) (s : State) : (s.accept w).status = s.status.accept (isFrameWord w) := rfl
@[simp] theorem State.accept_snapSize (w : Word) (s : State) : (s.accept w).snapSize = s.snapSize := rfl
@[simp] theorem State.accept_fmtIdx (w : Word) (s : State) : (s.accept w).fmtIdx = s.fmtIdx := rfl
@[simp] theorem State.accept_resEntry (w : Word) (s : State) : (s.accept w).resEntry = s.resEntry := rfl
@[simp] theorem State.accept_resIndex (w : Word) (s : State) : (s.accept w).resIndex = s.resIndex := rfl
@[simp] theorem State.accept_resRgb (w : Word) (s : State) : (s.accept w).resRgb = s.resRgb := rfl
@[simp] theorem State.accept_errAddr (w : Word) (s : State) : (s.accept w).errAddr = 0#32 := rfl
@[simp] theorem State.accept_snap (w : Word) (s : State) : (s.accept w).snap = s.snap := rfl
@[simp] theorem State.accept_powerOns (w : Word) (s : State) : (s.accept w).powerOns = s.powerOns := rfl
@[simp] theorem State.accept_latch (w : Word) (s : State) : (s.accept w).latch = some w := rfl
@[simp] theorem State.accept_pos (w : Word) (s : State) : (s.accept w).pos = .start := rfl
@[simp] theorem State.accept_sink (w : Word) (s : State) : (s.accept w).sink = s.sink := rfl
@[simp] theorem State.accept_frame (w : Word) (s : State) : (s.accept w).frame = s.frame := rfl
@[simp] theorem State.accept_sched (w : Word) (s : State) : (s.accept w).sched = s.sched := rfl
@[simp] theorem State.accept_replies (w : Word) (s : State) : (s.accept w).replies = s.replies := rfl

/-! ### complete -/

@[simp] theorem State.complete_cfg (s : State) : (s.complete).cfg = s.cfg := rfl
@[simp] theorem State.complete_status (s : State) : (s.complete).status = s.status.complete := rfl
@[simp] theorem State.complete_snapSize (s : State) : (s.complete).snapSize = s.snapSize := rfl
@[simp] theorem State.complete_fmtIdx (s : State) : (s.complete).fmtIdx = s.fmtIdx := rfl
@[simp] theorem State.complete_resEntry (s : State) : (s.complete).resEntry = s.resEntry := rfl
@[simp] theorem State.complete_resIndex (s : State) : (s.complete).resIndex = s.resIndex := rfl
@[simp] theorem State.complete_resRgb (s : State) : (s.complete).resRgb = s.resRgb := rfl
@[simp] theorem State.complete_errAddr (s : State) : (s.complete).errAddr = s.errAddr := rfl
@[simp] theorem State.complete_snap (s : State) : (s.complete).snap = s.snap := rfl
@[simp] theorem State.complete_powerOns (s : State) : (s.complete).powerOns = s.powerOns := rfl
@[simp] theorem State.complete_latch (s : State) : (s.complete).latch = none := rfl
@[simp] theorem State.complete_pos (s : State) : (s.complete).pos = .start := rfl
@[simp] theorem State.complete_sink (s : State) : (s.complete).sink = s.sink := rfl
@[simp] theorem State.complete_frame (s : State) : (s.complete).frame = s.frame := rfl
@[simp] theorem State.complete_sched (s : State) : (s.complete).sched = s.sched := rfl
@[simp] theorem State.complete_replies (s : State) : (s.complete).replies = s.replies := rfl

/-! ### raise -/

@[simp] theorem State.raise_cfg (e : CmdError) (info : Nat) (s : State) : (s.raise e info).cfg = s.cfg := rfl
@[simp] theorem State.raise_status (e : CmdError) (info : Nat) (s : State) : (s.raise e info).status = s.status.raise e := rfl
@[simp] theorem State.raise_snapSize (e : CmdError) (info : Nat) (s : State) : (s.raise e info).snapSize = s.snapSize := rfl
@[simp] theorem State.raise_fmtIdx (e : CmdError) (info : Nat) (s : State) : (s.raise e info).fmtIdx = s.fmtIdx := rfl
@[simp] theorem State.raise_resEntry (e : CmdError) (info : Nat) (s : State) : (s.raise e info).resEntry = s.resEntry := rfl
@[simp] theorem State.raise_resIndex (e : CmdError) (info : Nat) (s : State) : (s.raise e info).resIndex = s.resIndex := rfl
@[simp] theorem State.raise_resRgb (e : CmdError) (info : Nat) (s : State) : (s.raise e info).resRgb = s.resRgb := rfl
@[simp] theorem State.raise_errAddr (e : CmdError) (info : Nat) (s : State) : (s.raise e info).errAddr = errInfo info := rfl
@[simp] theorem State.raise_snap (e : CmdError) (info : Nat) (s : State) : (s.raise e info).snap = s.snap := rfl
@[simp] theorem State.raise_powerOns (e : CmdError) (info : Nat) (s : State) : (s.raise e info).powerOns = s.powerOns := rfl
@[simp] theorem State.raise_latch (e : CmdError) (info : Nat) (s : State) : (s.raise e info).latch = none := rfl
@[simp] theorem State.raise_pos (e : CmdError) (info : Nat) (s : State) : (s.raise e info).pos = .start := rfl
@[simp] theorem State.raise_sink (e : CmdError) (info : Nat) (s : State) : (s.raise e info).sink = s.sink := rfl
@[simp] theorem State.raise_frame (e : CmdError) (info : Nat) (s : State) : (s.raise e info).frame = s.frame := rfl
@[simp] theorem State.raise_sched (e : CmdError) (info : Nat) (s : State) : (s.raise e info).sched = s.sched := rfl
@[simp] theorem State.raise_replies (e : CmdError) (info : Nat) (s : State) : (s.raise e info).replies = s.replies := rfl

/-! ### softReset -/

@[simp] theorem State.softReset_cfg (s : State) : (s.softReset).cfg = s.cfg := rfl
@[simp] theorem State.softReset_status (s : State) : (s.softReset).status = Status.reset := rfl
@[simp] theorem State.softReset_snapSize (s : State) : (s.softReset).snapSize = 0#32 := rfl
@[simp] theorem State.softReset_fmtIdx (s : State) : (s.softReset).fmtIdx = 0#32 := rfl
@[simp] theorem State.softReset_resEntry (s : State) : (s.softReset).resEntry = 0#32 := rfl
@[simp] theorem State.softReset_resIndex (s : State) : (s.softReset).resIndex = 0#32 := rfl
@[simp] theorem State.softReset_resRgb (s : State) : (s.softReset).resRgb = 0#32 := rfl
@[simp] theorem State.softReset_errAddr (s : State) : (s.softReset).errAddr = 0#32 := rfl
@[simp] theorem State.softReset_snap (s : State) : (s.softReset).snap = s.snap := rfl
@[simp] theorem State.softReset_powerOns (s : State) : (s.softReset).powerOns = s.powerOns := rfl
@[simp] theorem State.softReset_latch (s : State) : (s.softReset).latch = none := rfl
@[simp] theorem State.softReset_pos (s : State) : (s.softReset).pos = .start := rfl
@[simp] theorem State.softReset_sink (s : State) : (s.softReset).sink = s.answersAfterStop := rfl
@[simp] theorem State.softReset_frame (s : State) : (s.softReset).frame = s.frame := rfl
@[simp] theorem State.softReset_sched (s : State) : (s.softReset).sched = s.sched := rfl
@[simp] theorem State.softReset_replies (s : State) : (s.softReset).replies = s.replies := rfl

/-! ### powerCycle -/

@[simp] theorem State.powerCycle_cfg (s : State) : (s.powerCycle).cfg = s.cfg := rfl
@[simp] theorem State.powerCycle_status (s : State) : (s.powerCycle).status = Status.reset := rfl
@[simp] theorem State.powerCycle_snapSize (s : State) : (s.powerCycle).snapSize = 0#32 := rfl
@[simp] theorem State.powerCycle_fmtIdx (s : State) : (s.powerCycle).fmtIdx = 0#32 := rfl
@[simp] theorem State.powerCycle_resEntry (s : State) : (s.powerCycle).resEntry = 0#32 := rfl
@[simp] theorem State.powerCycle_resIndex (s : State) : (s.powerCycle).resIndex = 0#32 := rfl
@[simp] theorem State.powerCycle_resRgb (s : State) : (s.powerCycle).resRgb = 0#32 := rfl
@[simp] theorem State.powerCycle_errAddr (s : State) : (s.powerCycle).errAddr = 0#32 := rfl
@[simp] theorem State.powerCycle_snap (s : State) : (s.powerCycle).snap = [] := rfl
@[simp] theorem State.powerCycle_powerOns (s : State) : (s.powerCycle).powerOns = s.powerOns + 1 := rfl
@[simp] theorem State.powerCycle_latch (s : State) : (s.powerCycle).latch = none := rfl
@[simp] theorem State.powerCycle_pos (s : State) : (s.powerCycle).pos = .start := rfl
@[simp] theorem State.powerCycle_sink (s : State) : (s.powerCycle).sink = s.answersAfterStop := rfl
@[simp] theorem State.powerCycle_frame (s : State) : (s.powerCycle).frame = s.frame := rfl
@[simp] theorem State.powerCycle_sched (s : State) : (s.powerCycle).sched = s.sched := rfl
@[simp] theorem State.powerCycle_replies (s : State) : (s.powerCycle).replies = s.replies := rfl

/-! ### withEntry -/

@[simp] theorem State.withEntry_cfg (w : Nat) (s : State) : (s.withEntry w).cfg = s.cfg := by simp only [State.withEntry]
@[simp] theorem State.withEntry_status (w : Nat) (s : State) : (s.withEntry w).status = s.status := by simp only [State.withEntry]
@[simp] theorem State.withEntry_snapSize (w : Nat) (s : State) : (s.withEntry w).snapSize = s.snapSize := by simp only [State.withEntry]
@[simp] theorem State.withEntry_fmtIdx (w : Nat) (s : State) : (s.withEntry w).fmtIdx = s.fmtIdx := by simp only [State.withEntry]
@[simp] theorem State.withEntry_resEntry (w : Nat) (s : State) : (s.withEntry w).resEntry = BitVec.ofNat 32 (packEntry (decodeEntry w)) := by simp only [State.withEntry]
@[simp] theorem State.withEntry_resIndex (w : Nat) (s : State) : (s.withEntry w).resIndex = s.resIndex := by simp only [State.withEntry]
@[simp] theorem State.withEntry_resRgb (w : Nat) (s : State) : (s.withEntry w).resRgb = s.resRgb := by simp only [State.withEntry]
@[simp] theorem State.withEntry_errAddr (w : Nat) (s : State) : (s.withEntry w).errAddr = s.errAddr := by simp only [State.withEntry]
@[simp] theorem State.withEntry_snap (w : Nat) (s : State) : (s.withEntry w).snap = s.snap := by simp only [State.withEntry]
@[simp] theorem State.withEntry_powerOns (w : Nat) (s : State) : (s.withEntry w).powerOns = s.powerOns := by simp only [State.withEntry]
@[simp] theorem State.withEntry_latch (w : Nat) (s : State) : (s.withEntry w).latch = s.latch := by simp only [State.withEntry]
@[simp] theorem State.withEntry_pos (w : Nat) (s : State) : (s.withEntry w).pos = s.pos := by simp only [State.withEntry]
@[simp] theorem State.withEntry_sink (w : Nat) (s : State) : (s.withEntry w).sink = s.sink := by simp only [State.withEntry]
@[simp] theorem State.withEntry_frame (w : Nat) (s : State) : (s.withEntry w).frame = s.frame := by simp only [State.withEntry]
@[simp] theorem State.withEntry_sched (w : Nat) (s : State) : (s.withEntry w).sched = s.sched := by simp only [State.withEntry]
@[simp] theorem State.withEntry_replies (w : Nat) (s : State) : (s.withEntry w).replies = s.replies := by simp only [State.withEntry]

/-! ### withRgb -/

@[simp] theorem State.withRgb_cfg (c : RGB) (s : State) : (s.withRgb c).cfg = s.cfg := by simp only [State.withRgb]
@[simp] theorem State.withRgb_status (c : RGB) (s : State) : (s.withRgb c).status = s.status := by simp only [State.withRgb]
@[simp] theorem State.withRgb_snapSize (c : RGB) (s : State) : (s.withRgb c).snapSize = s.snapSize := by simp only [State.withRgb]
@[simp] theorem State.withRgb_fmtIdx (c : RGB) (s : State) : (s.withRgb c).fmtIdx = s.fmtIdx := by simp only [State.withRgb]
@[simp] theorem State.withRgb_resEntry (c : RGB) (s : State) : (s.withRgb c).resEntry = s.resEntry := by simp only [State.withRgb]
@[simp] theorem State.withRgb_resIndex (c : RGB) (s : State) : (s.withRgb c).resIndex = s.resIndex := by simp only [State.withRgb]
@[simp] theorem State.withRgb_resRgb (c : RGB) (s : State) : (s.withRgb c).resRgb = BitVec.ofNat 32 (packRgb c) := by simp only [State.withRgb]
@[simp] theorem State.withRgb_errAddr (c : RGB) (s : State) : (s.withRgb c).errAddr = s.errAddr := by simp only [State.withRgb]
@[simp] theorem State.withRgb_snap (c : RGB) (s : State) : (s.withRgb c).snap = s.snap := by simp only [State.withRgb]
@[simp] theorem State.withRgb_powerOns (c : RGB) (s : State) : (s.withRgb c).powerOns = s.powerOns := by simp only [State.withRgb]
@[simp] theorem State.withRgb_latch (c : RGB) (s : State) : (s.withRgb c).latch = s.latch := by simp only [State.withRgb]
@[simp] theorem State.withRgb_pos (c : RGB) (s : State) : (s.withRgb c).pos = s.pos := by simp only [State.withRgb]
@[simp] theorem State.withRgb_sink (c : RGB) (s : State) : (s.withRgb c).sink = s.sink := by simp only [State.withRgb]
@[simp] theorem State.withRgb_frame (c : RGB) (s : State) : (s.withRgb c).frame = s.frame := by simp only [State.withRgb]
@[simp] theorem State.withRgb_sched (c : RGB) (s : State) : (s.withRgb c).sched = s.sched := by simp only [State.withRgb]
@[simp] theorem State.withRgb_replies (c : RGB) (s : State) : (s.withRgb c).replies = s.replies := by simp only [State.withRgb]

/-! ### answer -/

@[simp] theorem State.answer_cfg (r : Reply) (s : State) : (s.answer r).cfg = s.cfg := rfl
@[simp] theorem State.answer_status (r : Reply) (s : State) : (s.answer r).status = s.status := rfl
@[simp] theorem State.answer_snapSize (r : Reply) (s : State) : (s.answer r).snapSize = s.snapSize := rfl
@[simp] theorem State.answer_fmtIdx (r : Reply) (s : State) : (s.answer r).fmtIdx = s.fmtIdx := rfl
@[simp] theorem State.answer_resEntry (r : Reply) (s : State) : (s.answer r).resEntry = s.resEntry := rfl
@[simp] theorem State.answer_resIndex (r : Reply) (s : State) : (s.answer r).resIndex = s.resIndex := rfl
@[simp] theorem State.answer_resRgb (r : Reply) (s : State) : (s.answer r).resRgb = s.resRgb := rfl
@[simp] theorem State.answer_errAddr (r : Reply) (s : State) : (s.answer r).errAddr = s.errAddr := rfl
@[simp] theorem State.answer_snap (r : Reply) (s : State) : (s.answer r).snap = s.snap := rfl
@[simp] theorem State.answer_powerOns (r : Reply) (s : State) : (s.answer r).powerOns = s.powerOns := rfl
@[simp] theorem State.answer_latch (r : Reply) (s : State) : (s.answer r).latch = s.latch := rfl
@[simp] theorem State.answer_pos (r : Reply) (s : State) : (s.answer r).pos = s.pos := rfl
@[simp] theorem State.answer_sink (r : Reply) (s : State) : (s.answer r).sink = s.sink := rfl
@[simp] theorem State.answer_frame (r : Reply) (s : State) : (s.answer r).frame = s.frame := rfl
@[simp] theorem State.answer_sched (r : Reply) (s : State) : (s.answer r).sched = s.sched := rfl
@[simp] theorem State.answer_replies (r : Reply) (s : State) : (s.answer r).replies = r :: s.replies := rfl

/-! ### issued -/

@[simp] theorem State.issued_cfg (w : Word) (s : State) : (s.issued w).cfg = s.cfg := rfl
@[simp] theorem State.issued_status (w : Word) (s : State) : (s.issued w).status = s.status.accept (isFrameWord w) := rfl
@[simp] theorem State.issued_snapSize (w : Word) (s : State) : (s.issued w).snapSize = s.snapSize := rfl
@[simp] theorem State.issued_fmtIdx (w : Word) (s : State) : (s.issued w).fmtIdx = s.fmtIdx := rfl
@[simp] theorem State.issued_resEntry (w : Word) (s : State) : (s.issued w).resEntry = s.resEntry := rfl
@[simp] theorem State.issued_resIndex (w : Word) (s : State) : (s.issued w).resIndex = s.resIndex := rfl
@[simp] theorem State.issued_resRgb (w : Word) (s : State) : (s.issued w).resRgb = s.resRgb := rfl
@[simp] theorem State.issued_errAddr (w : Word) (s : State) : (s.issued w).errAddr = 0#32 := rfl
@[simp] theorem State.issued_snap (w : Word) (s : State) : (s.issued w).snap = s.snap := rfl
@[simp] theorem State.issued_powerOns (w : Word) (s : State) : (s.issued w).powerOns = s.powerOns := rfl
@[simp] theorem State.issued_latch (w : Word) (s : State) : (s.issued w).latch = some w := rfl
@[simp] theorem State.issued_pos (w : Word) (s : State) : (s.issued w).pos = .start := rfl
@[simp] theorem State.issued_sink (w : Word) (s : State) : (s.issued w).sink = s.sink := rfl
@[simp] theorem State.issued_frame (w : Word) (s : State) : (s.issued w).frame = s.frame := rfl
@[simp] theorem State.issued_sched (w : Word) (s : State) : (s.issued w).sched = .run :: s.sched := rfl
@[simp] theorem State.issued_replies (w : Word) (s : State) : (s.issued w).replies = s.replies := rfl

/-! ### STATUS: accept -/

@[simp] theorem Status.accept_busy (fc : Bool) (f : Status) : (f.accept fc).busy = true := rfl
@[simp] theorem Status.accept_done (fc : Bool) (f : Status) : (f.accept fc).done = false := rfl
@[simp] theorem Status.accept_valid (fc : Bool) (f : Status) : (f.accept fc).valid = f.valid := rfl
@[simp] theorem Status.accept_err (fc : Bool) (f : Status) : (f.accept fc).err = false := rfl
@[simp] theorem Status.accept_errCode (fc : Bool) (f : Status) : (f.accept fc).errCode = 0#4 := rfl
@[simp] theorem Status.accept_frameValid (fc : Bool) (f : Status) : (f.accept fc).frameValid = (if fc then false else f.frameValid) := rfl
@[simp] theorem Status.accept_cmdOvf (fc : Bool) (f : Status) : (f.accept fc).cmdOvf = f.cmdOvf := rfl
@[simp] theorem Status.accept_wlock (fc : Bool) (f : Status) : (f.accept fc).wlock = f.wlock := rfl

/-! ### STATUS: complete -/

@[simp] theorem Status.complete_busy (f : Status) : (f.complete).busy = false := rfl
@[simp] theorem Status.complete_done (f : Status) : (f.complete).done = true := rfl
@[simp] theorem Status.complete_valid (f : Status) : (f.complete).valid = f.valid := rfl
@[simp] theorem Status.complete_err (f : Status) : (f.complete).err = f.err := rfl
@[simp] theorem Status.complete_errCode (f : Status) : (f.complete).errCode = f.errCode := rfl
@[simp] theorem Status.complete_frameValid (f : Status) : (f.complete).frameValid = f.frameValid := rfl
@[simp] theorem Status.complete_cmdOvf (f : Status) : (f.complete).cmdOvf = f.cmdOvf := rfl
@[simp] theorem Status.complete_wlock (f : Status) : (f.complete).wlock = f.wlock := rfl

/-! ### STATUS: raise -/

@[simp] theorem Status.raise_busy (e : CmdError) (f : Status) : (f.raise e).busy = false := rfl
@[simp] theorem Status.raise_done (e : CmdError) (f : Status) : (f.raise e).done = f.done := rfl
@[simp] theorem Status.raise_valid (e : CmdError) (f : Status) : (f.raise e).valid = f.valid := rfl
@[simp] theorem Status.raise_err (e : CmdError) (f : Status) : (f.raise e).err = true := rfl
@[simp] theorem Status.raise_errCode (e : CmdError) (f : Status) : (f.raise e).errCode = e.code := rfl
@[simp] theorem Status.raise_frameValid (e : CmdError) (f : Status) : (f.raise e).frameValid = f.frameValid := rfl
@[simp] theorem Status.raise_cmdOvf (e : CmdError) (f : Status) : (f.raise e).cmdOvf = f.cmdOvf := rfl
@[simp] theorem Status.raise_wlock (e : CmdError) (f : Status) : (f.raise e).wlock = f.wlock := rfl

/-! ### STATUS: setValid -/

@[simp] theorem Status.setValid_busy (v : Bool) (f : Status) : (f.setValid v).busy = f.busy := rfl
@[simp] theorem Status.setValid_done (v : Bool) (f : Status) : (f.setValid v).done = f.done := rfl
@[simp] theorem Status.setValid_valid (v : Bool) (f : Status) : (f.setValid v).valid = v := rfl
@[simp] theorem Status.setValid_err (v : Bool) (f : Status) : (f.setValid v).err = f.err := rfl
@[simp] theorem Status.setValid_errCode (v : Bool) (f : Status) : (f.setValid v).errCode = f.errCode := rfl
@[simp] theorem Status.setValid_frameValid (v : Bool) (f : Status) : (f.setValid v).frameValid = f.frameValid := rfl
@[simp] theorem Status.setValid_cmdOvf (v : Bool) (f : Status) : (f.setValid v).cmdOvf = f.cmdOvf := rfl
@[simp] theorem Status.setValid_wlock (v : Bool) (f : Status) : (f.setValid v).wlock = f.wlock := rfl

/-! ### STATUS: setFrameValid -/

@[simp] theorem Status.setFrameValid_busy (f : Status) : (f.setFrameValid).busy = f.busy := rfl
@[simp] theorem Status.setFrameValid_done (f : Status) : (f.setFrameValid).done = f.done := rfl
@[simp] theorem Status.setFrameValid_valid (f : Status) : (f.setFrameValid).valid = f.valid := rfl
@[simp] theorem Status.setFrameValid_err (f : Status) : (f.setFrameValid).err = f.err := rfl
@[simp] theorem Status.setFrameValid_errCode (f : Status) : (f.setFrameValid).errCode = f.errCode := rfl
@[simp] theorem Status.setFrameValid_frameValid (f : Status) : (f.setFrameValid).frameValid = true := rfl
@[simp] theorem Status.setFrameValid_cmdOvf (f : Status) : (f.setFrameValid).cmdOvf = f.cmdOvf := rfl
@[simp] theorem Status.setFrameValid_wlock (f : Status) : (f.setFrameValid).wlock = f.wlock := rfl

/-! ### STATUS: clearSticky -/

@[simp] theorem Status.clearSticky_busy (f : Status) : (f.clearSticky).busy = f.busy := rfl
@[simp] theorem Status.clearSticky_done (f : Status) : (f.clearSticky).done = f.done := rfl
@[simp] theorem Status.clearSticky_valid (f : Status) : (f.clearSticky).valid = f.valid := rfl
@[simp] theorem Status.clearSticky_err (f : Status) : (f.clearSticky).err = f.err := rfl
@[simp] theorem Status.clearSticky_errCode (f : Status) : (f.clearSticky).errCode = f.errCode := rfl
@[simp] theorem Status.clearSticky_frameValid (f : Status) : (f.clearSticky).frameValid = f.frameValid := rfl
@[simp] theorem Status.clearSticky_cmdOvf (f : Status) : (f.clearSticky).cmdOvf = false := rfl
@[simp] theorem Status.clearSticky_wlock (f : Status) : (f.clearSticky).wlock = false := rfl

/-! ### STATUS: setCmdOvf -/

@[simp] theorem Status.setCmdOvf_busy (f : Status) : (f.setCmdOvf).busy = f.busy := rfl
@[simp] theorem Status.setCmdOvf_done (f : Status) : (f.setCmdOvf).done = f.done := rfl
@[simp] theorem Status.setCmdOvf_valid (f : Status) : (f.setCmdOvf).valid = f.valid := rfl
@[simp] theorem Status.setCmdOvf_err (f : Status) : (f.setCmdOvf).err = f.err := rfl
@[simp] theorem Status.setCmdOvf_errCode (f : Status) : (f.setCmdOvf).errCode = f.errCode := rfl
@[simp] theorem Status.setCmdOvf_frameValid (f : Status) : (f.setCmdOvf).frameValid = f.frameValid := rfl
@[simp] theorem Status.setCmdOvf_cmdOvf (f : Status) : (f.setCmdOvf).cmdOvf = true := rfl
@[simp] theorem Status.setCmdOvf_wlock (f : Status) : (f.setCmdOvf).wlock = f.wlock := rfl

/-! ### STATUS: setWlock -/

@[simp] theorem Status.setWlock_busy (f : Status) : (f.setWlock).busy = f.busy := rfl
@[simp] theorem Status.setWlock_done (f : Status) : (f.setWlock).done = f.done := rfl
@[simp] theorem Status.setWlock_valid (f : Status) : (f.setWlock).valid = f.valid := rfl
@[simp] theorem Status.setWlock_err (f : Status) : (f.setWlock).err = f.err := rfl
@[simp] theorem Status.setWlock_errCode (f : Status) : (f.setWlock).errCode = f.errCode := rfl
@[simp] theorem Status.setWlock_frameValid (f : Status) : (f.setWlock).frameValid = f.frameValid := rfl
@[simp] theorem Status.setWlock_cmdOvf (f : Status) : (f.setWlock).cmdOvf = f.cmdOvf := rfl
@[simp] theorem Status.setWlock_wlock (f : Status) : (f.setWlock).wlock = true := rfl

/-! ### STATUS: reset -/

@[simp] theorem Status.reset_busy : Status.reset.busy = false := rfl
@[simp] theorem Status.reset_done : Status.reset.done = false := rfl
@[simp] theorem Status.reset_valid : Status.reset.valid = false := rfl
@[simp] theorem Status.reset_err : Status.reset.err = false := rfl
@[simp] theorem Status.reset_errCode : Status.reset.errCode = 0#4 := rfl
@[simp] theorem Status.reset_frameValid : Status.reset.frameValid = false := rfl
@[simp] theorem Status.reset_cmdOvf : Status.reset.cmdOvf = false := rfl
@[simp] theorem Status.reset_wlock : Status.reset.wlock = false := rfl

end Sys2Proof.Machine
end

