-- ==== Sys2Proof/Laws/Run.lean ====
section
/-! SUPPORT. What the shared operations can do, each said once: SnapRead, FrameWrite, one step of the core, a run of a
command. -/
namespace Sys2Proof.Machine

/-! ### SnapRead -/

/-- A readable range is read: the position moves on with the bytes (20_memory.md R64). -/
theorem snapRead_readable (s : State) (off n : Nat) (next : List Byte → Pos) (h : s.Readable off n) :
    snapRead off n next s = .next { s with pos := next (s.snapBytes off n) } := by
  have hfault : ¬ (s.cfg.val.unwrittenSnapRead = .fault ∧ s.coversUnwritten off n = true) := by
    rintro ⟨hf, hu⟩
    rcases h.2 with hv | hw
    · simp [hv] at hf
    · obtain ⟨k, hk, hn⟩ := List.any_eq_true.1 hu
      have := hw k (List.mem_range.1 hk)
      simp_all
  rw [snapRead, if_neg (Nat.not_lt.2 h.1), if_neg hfault]

/-- A range that crosses SNAP_SIZE is not read: OutOfRange comes next. -/
theorem snapRead_outOfRange (s : State) (off n : Nat) (next : List Byte → Pos) (h : s.snapSize.toNat < off + n) :
    snapRead off n next s = .next { s with pos := .failed .outOfRange off } := by
  rw [snapRead, if_pos h]

/-- Everything SnapRead can answer. -/
theorem snapRead_cases (s : State) (off n : Nat) (next : List Byte → Pos) :
    (snapRead off n next s = .next { s with pos := .failed .outOfRange off } ∧ s.snapSize.toNat < off + n) ∨
    (snapRead off n next s = .fault (.unwrittenSnapRead off) ∧ s.cfg.val.unwrittenSnapRead = .fault) ∨
    (snapRead off n next s = .next { s with pos := next (s.snapBytes off n) } ∧ off + n ≤ s.snapSize.toNat) := by
  unfold snapRead
  split
  · exact .inl ⟨rfl, ‹_›⟩
  · split
    · exact .inr (.inl ⟨rfl, (‹_ ∧ _› : _).1⟩)
    · exact .inr (.inr ⟨rfl, by omega⟩)

@[simp] theorem State.snapBytes_length (s : State) (off n : Nat) : (s.snapBytes off n).length = n := by
  simp [State.snapBytes]

/-- Byte k of a read is the stored byte at its offset. -/
theorem byteAt_snapBytes (s : State) (off n k : Nat) (h : k < n) :
    byteAt (s.snapBytes off n) k = (s.snapByte (off + k)).toNat := by
  simp [byteAt, State.snapBytes, List.getD, h]

/-! ### FrameWrite -/

theorem frameWrite_ok (s : State) (p : Nat) (c : RGB) (next : Pos) (rest : List SinkAnswer)
    (h : s.sink = .ok :: rest) :
    frameWrite p c next s = { s with sink := rest, frame := ⟨p, c⟩ :: s.frame, pos := next } := by
  simp [frameWrite, h]

theorem frameWrite_err (s : State) (p : Nat) (c : RGB) (next : Pos) (rest : List SinkAnswer)
    (h : s.sink = .err :: rest) :
    frameWrite p c next s = { s with sink := rest, pos := .failed .outputWriteFailure p } := by
  simp [frameWrite, h]

theorem frameWrite_silent (s : State) (p : Nat) (c : RGB) (next : Pos) (h : s.sink = []) :
    frameWrite p c next s = s := by
  simp [frameWrite, h]

/-- Everything FrameWrite can do. -/
theorem frameWrite_cases (s : State) (p : Nat) (c : RGB) (next : Pos) :
    (frameWrite p c next s = s ∧ s.sink = []) ∨
    (∃ rest, s.sink = .ok :: rest ∧
      frameWrite p c next s = { s with sink := rest, frame := ⟨p, c⟩ :: s.frame, pos := next }) ∨
    (∃ rest, s.sink = .err :: rest ∧
      frameWrite p c next s = { s with sink := rest, pos := .failed .outputWriteFailure p }) := by
  match h : s.sink with
  | [] => exact .inl ⟨frameWrite_silent s p c next h, rfl⟩
  | .ok :: rest => exact .inr (.inl ⟨rest, rfl, frameWrite_ok s p c next rest h⟩)
  | .err :: rest => exact .inr (.inr ⟨rest, rfl, frameWrite_err s p c next rest h⟩)

/-! ### A run of a command -/

/-- The run stops after an action that ends the command or finds the sink silent. -/
theorem runCommand_stop (act : State → Action) (n : Nat) (s t : State) (hp : perform (act s) s = .next t)
    (hs : (act s).stops s = true) : runCommand act (n + 1) s = .next t := by
  simp [runCommand, hp, hs]

/-- The run goes on after any other. -/
theorem runCommand_go (act : State → Action) (n : Nat) (s t : State) (hp : perform (act s) s = .next t)
    (hs : (act s).stops s = false) : runCommand act (n + 1) s = runCommand act n t := by
  simp [runCommand, hp, hs]

/-- A completion or an abort ends the run. -/
theorem runCommand_last (act : State → Action) (n : Nat) (s t : State) (h : act s = .last t) :
    runCommand act (n + 1) s = .next t :=
  runCommand_stop act n s t (by simp [h, perform]) (by simp [h, Action.stops])

theorem runCommand_read (act : State → Action) (n : Nat) (s : State) (off len : Nat) (next : List Byte → Pos)
    (h : act s = .read off len next) (hr : s.Readable off len) :
    runCommand act (n + 1) s = runCommand act n { s with pos := next (s.snapBytes off len) } :=
  runCommand_go act n s _ (by rw [h]; exact snapRead_readable s off len next hr) (by simp [h, Action.stops])

theorem runCommand_read_outOfRange (act : State → Action) (n : Nat) (s : State) (off len : Nat)
    (next : List Byte → Pos) (h : act s = .read off len next) (hr : s.snapSize.toNat < off + len) :
    runCommand act (n + 1) s = runCommand act n { s with pos := .failed .outOfRange off } :=
  runCommand_go act n s _ (by rw [h]; exact snapRead_outOfRange s off len next hr) (by simp [h, Action.stops])

/-- A SnapRead in range that covers an unwritten byte stops a build that takes `fault` (70_reset_and_hazards.md R343). -/
theorem snapRead_unwritten (s : State) (off n k : Nat) (next : List Byte → Pos) (hr : off + n ≤ s.snapSize.toNat)
    (hf : s.cfg.val.unwrittenSnapRead = .fault) (hk : k < n) (hu : s.snap.get? (off + k) = none) :
    snapRead off n next s = .fault (.unwrittenSnapRead off) := by
  have hc : s.coversUnwritten off n = true :=
    List.any_eq_true.2 ⟨k, List.mem_range.2 hk, by rw [hu]; rfl⟩
  rw [snapRead, if_neg (Nat.not_lt.2 hr), if_pos ⟨hf, hc⟩]

/-- A fault ends the run. -/
theorem runCommand_fault (act : State → Action) (n : Nat) (s : State) (r : Fault) (h : perform (act s) s = .fault r) :
    runCommand act (n + 1) s = .fault r := by
  rw [runCommand, h]

theorem runCommand_write_ok (act : State → Action) (n : Nat) (s : State) (p : Nat) (c : RGB) (next : Pos)
    (rest : List SinkAnswer) (h : act s = .write p c next) (hs : s.sink = .ok :: rest) :
    runCommand act (n + 1) s =
      runCommand act n { s with sink := rest, frame := ⟨p, c⟩ :: s.frame, pos := next } :=
  runCommand_go act n s _ (by rw [h, perform, frameWrite_ok s p c next rest hs])
    (by simp [h, Action.stops, hs])

theorem runCommand_write_err (act : State → Action) (n : Nat) (s : State) (p : Nat) (c : RGB) (next : Pos)
    (rest : List SinkAnswer) (h : act s = .write p c next) (hs : s.sink = .err :: rest) :
    runCommand act (n + 1) s = runCommand act n { s with sink := rest, pos := .failed .outputWriteFailure p } :=
  runCommand_go act n s _ (by rw [h, perform, frameWrite_err s p c next rest hs])
    (by simp [h, Action.stops, hs])

theorem runCommand_write_silent (act : State → Action) (n : Nat) (s : State) (p : Nat) (c : RGB) (next : Pos)
    (h : act s = .write p c next) (hs : s.sink = []) : runCommand act (n + 1) s = .next s :=
  runCommand_stop act n s s (by rw [h, perform, frameWrite_silent s p c next hs]) (by simp [h, Action.stops, hs])

/-- What holds of a run: `P` while it goes on, `Q` where it stops or its fuel is spent. -/
theorem runCommand_induct (act : State → Action) (P Q : State → Prop)
    (hgo : ∀ s t, P s → perform (act s) s = .next t → (act s).stops s = false → P t)
    (hstop : ∀ s t, P s → perform (act s) s = .next t → (act s).stops s = true → Q t)
    (hfuel : ∀ s, P s → Q s) (n : Nat) (s t : State) (hs : P s) (h : runCommand act n s = .next t) : Q t := by
  induction n generalizing s with
  | zero => simp only [runCommand, Host.Outcome.next.injEq] at h; exact h ▸ hfuel s hs
  | succ n ih =>
    rw [runCommand] at h
    split at h
    · rename_i u hu
      split at h
      · simp only [Host.Outcome.next.injEq] at h; exact h ▸ hstop s u hs hu ‹_›
      · exact ih u (hgo s u hs hu (Bool.eq_false_iff.2 ‹_›)) h
    · simp at h
    · simp at h

/-- What a relation between a state and the state one step of the core later says, a run says too, if the relation is
reflexive and transitive. -/
theorem runCommand_frame (act : State → Action) (R : State → State → Prop) (hrefl : ∀ s, R s s)
    (htrans : ∀ s t u, R s t → R t u → R s u) (hstep : ∀ s t, perform (act s) s = .next t → R s t) (n : Nat)
    (s t : State) (h : runCommand act n s = .next t) : R s t :=
  runCommand_induct act (R s) (R s) (fun u v hu hv _ => htrans s u v hu (hstep u v hv))
    (fun u v hu hv _ => htrans s u v hu (hstep u v hv)) (fun _ hu => hu) n s t (hrefl s) h

/-- The core's steps never answer a refusal. -/
theorem perform_ne_refused (a : Action) (s : State) (r : Refusal) : perform a s ≠ .refused r := by
  cases a with
  | last t => simp [perform]
  | read off n next =>
    rcases snapRead_cases s off n next with h | h | h <;> simp [perform, h.1]
  | write p c next => simp [perform]

end Sys2Proof.Machine
end

