-- ==== Sys2Proof/Laws/Exec.lean ====
section
/-! SUPPORT. `exec` of every command is one run of its actions; the commands with one SnapRead and those without. -/
namespace Sys2Proof.Machine

/-- The meaning of a command is the run of its actions. -/
theorem exec_eq_run (i : Instr) (s : State) : exec i s = runCommand (action i) commandFuel s := by
  cases i <;> rfl

theorem commandFuel_eq : commandFuel = 270337 + 1 := rfl

/-- A command whose next action is its last one. -/
theorem exec_last (i : Instr) (s t : State) (h : action i s = .last t) : exec i s = .next t := by
  rw [exec_eq_run, commandFuel_eq, runCommand_last (action i) _ s t h]

/-- A command whose next action is a readable SnapRead and whose next one after it is its last. -/
theorem exec_read_last (i : Instr) (s t : State) (off n : Nat) (next : List Byte → Pos)
    (h : action i s = .read off n next) (hr : s.Readable off n)
    (hl : action i { s with pos := next (s.snapBytes off n) } = .last t) : exec i s = .next t := by
  rw [exec_eq_run, commandFuel_eq, runCommand_read (action i) _ s off n next h hr, runCommand_last (action i) _ _ t hl]

/-- A command whose next action is a SnapRead out of range: the abort that comes next. -/
theorem exec_read_outOfRange (i : Instr) (s t : State) (off n : Nat) (next : List Byte → Pos)
    (h : action i s = .read off n next) (hr : s.snapSize.toNat < off + n)
    (hl : action i { s with pos := .failed .outOfRange off } = .last t) : exec i s = .next t := by
  rw [exec_eq_run, commandFuel_eq, runCommand_read_outOfRange (action i) _ s off n next h hr,
    runCommand_last (action i) _ _ t hl]

/-- What the actions of a single-read command are, position by position. -/
theorem singleRead_start (off n : Nat) (result : List Byte → State) (s : State) (hp : s.pos = .start)
    (hv : s.status.valid = true) : singleRead off n result s = .read off n .got := by
  simp [singleRead, hp, hv]

theorem singleRead_notValid (off n : Nat) (result : List Byte → State) (s : State) (hp : s.pos = .start)
    (hv : s.status.valid = false) : singleRead off n result s = .last (s.raise .notValidated 0) := by
  simp [singleRead, hp, hv]

theorem singleRead_got (off n : Nat) (result : List Byte → State) (s : State) (bytes : List Byte)
    (hp : s.pos = .got bytes) : singleRead off n result s = .last (result bytes).complete := by
  simp [singleRead, hp]

theorem singleRead_failed (off n : Nat) (result : List Byte → State) (s : State) (e : CmdError) (info : Nat)
    (hp : s.pos = .failed e info) : singleRead off n result s = .last (s.raise e info) := by
  simp [singleRead, hp]

end Sys2Proof.Machine
end

