-- ==== Sys2Proof/Laws/Action.lean ====
section
/-! SUPPORT. What a step of the core can change, said once: the last step of a command, any other step, and a whole run. -/
namespace Sys2Proof.Machine

/-- What no step of the core changes: the build, SNAP_SIZE, SNAP, the schedule and the replies (60_exceptions.md R300). -/
def State.SameOutside (s t : State) : Prop :=
  t.cfg = s.cfg ∧ t.snapSize = s.snapSize ∧ t.snap = s.snap ∧ t.powerOns = s.powerOns ∧ t.sched = s.sched ∧
    t.replies = s.replies

theorem State.SameOutside.refl (s : State) : s.SameOutside s := ⟨rfl, rfl, rfl, rfl, rfl, rfl⟩

theorem State.SameOutside.trans (s t u : State) (h : s.SameOutside t) (h' : t.SameOutside u) : s.SameOutside u :=
  ⟨h'.1.trans h.1, h'.2.1.trans h.2.1, h'.2.2.1.trans h.2.2.1, h'.2.2.2.1.trans h.2.2.2.1,
    h'.2.2.2.2.1.trans h.2.2.2.2.1, h'.2.2.2.2.2.trans h.2.2.2.2.2⟩

/-- How the last step of a command leaves the block (R304, R305): idle, the sink as it was. -/
def State.Ended (s t : State) : Prop :=
  t.latch = none ∧ t.pos = .start ∧ t.status.busy = false ∧ t.sink = s.sink ∧ t.frame = s.frame ∧ s.SameOutside t

/-- Register writes only. -/
def State.RegistersOnly (s u : State) : Prop :=
  u.sink = s.sink ∧ u.frame = s.frame ∧ s.SameOutside u

theorem State.RegistersOnly.refl (s : State) : s.RegistersOnly s := ⟨rfl, rfl, .refl s⟩

theorem registersOnly_withEntry (w : Nat) (s : State) : s.RegistersOnly (s.withEntry w) := by
  simp only [State.RegistersOnly, State.SameOutside, State.withEntry, and_self]

theorem registersOnly_withRgb (c : RGB) (s : State) : s.RegistersOnly (s.withRgb c) := by
  simp only [State.RegistersOnly, State.SameOutside, State.withRgb, and_self]

theorem ended_complete (s u : State) (h : s.RegistersOnly u) : s.Ended u.complete :=
  ⟨rfl, rfl, rfl, h.1, h.2.1, h.2.2⟩

theorem ended_raise (s u : State) (e : CmdError) (info : Nat) (h : s.RegistersOnly u) : s.Ended (u.raise e info) :=
  ⟨rfl, rfl, rfl, h.1, h.2.1, h.2.2⟩

theorem singleRead_last (off n : Nat) (result : List Byte → State) (s t : State) (h : singleRead off n result s = .last t)
    (hr : ∀ bytes, s.RegistersOnly (result bytes)) : s.Ended t := by
  rw [singleRead] at h
  split at h
  · cases h; exact ended_complete s _ (hr _)
  · cases h; exact ended_raise s s _ _ (.refl s)
  · split at h
    · cases h
    · cases h; exact ended_raise s s _ _ (.refl s)

theorem frameCommand_last (first : Nat) (after : List Byte → Nat → Pos) (finish : State → State) (s t : State)
    (h : frameCommand first after finish s = .last t) (hr : s.RegistersOnly (finish s)) : s.Ended t := by
  rw [frameCommand] at h
  split at h
  · cases h
  · cases h
  · cases h
  · cases h; exact ended_complete s _ hr
  · cases h; exact ended_raise s s _ _ (.refl s)
  · split at h
    · cases h
    · cases h; exact ended_raise s s _ _ (.refl s)

/-- The last step of a command returns the block to idle and moves nothing at the sink. -/
theorem action_last (i : Instr) (s t : State) (h : action i s = .last t) : s.Ended t := by
  cases i with
  | nop => cases h; exact ended_complete s s (.refl s)
  | validate =>
    rw [action, actValidate] at h
    cases h
    split
    · exact ended_raise s { s with status := s.status.setValid false } _ _ ⟨rfl, rfl, rfl, rfl, rfl, rfl, rfl, rfl⟩
    · rename_i k _
      exact ended_complete s { s with fmtIdx := BitVec.ofNat 32 k, status := s.status.setValid true }
        ⟨rfl, rfl, rfl, rfl, rfl, rfl, rfl, rfl⟩
  | clrerr =>
    cases h; exact ended_complete s { s with status := s.status.clearSticky } ⟨rfl, rfl, rfl, rfl, rfl, rfl, rfl, rfl⟩
  | tmdec word => cases h; exact ended_complete s (s.withEntry word) (registersOnly_withEntry word s)
  | tmfetch mt ent =>
    rw [action, actTmfetch] at h
    exact singleRead_last _ _ _ s t h fun _ => registersOnly_withEntry _ s
  | pixidx tile row col =>
    rw [action, actPixidx] at h
    exact singleRead_last _ _ _ s t h fun _ => by simp only [State.RegistersOnly, State.SameOutside, and_self]
  | palres sel idx =>
    rw [action, actPalres] at h
    split at h
    · cases h
      split
      · exact ended_complete s (s.withRgb sentinel) (registersOnly_withRgb _ s)
      · exact ended_raise s s _ _ (.refl s)
    · exact singleRead_last _ _ _ s t h fun _ => registersOnly_withRgb _ s
  | mtbuild mt =>
    rw [action, actMtbuild] at h
    exact frameCommand_last _ _ _ s t h (.refl s)
  | raster =>
    rw [action, actRaster] at h
    exact frameCommand_last 0 afterMetatile (fun t => { t with status := t.status.setFrameValid }) s t h
      ⟨rfl, rfl, rfl, rfl, rfl, rfl, rfl, rfl⟩

/-- The SnapRead of a single-read command: the one it is given, from any position without bytes or failure, while VALID. -/
theorem singleRead_read (off n : Nat) (result : List Byte → State) (s : State) (off' n' : Nat) (next : List Byte → Pos)
    (h : singleRead off n result s = .read off' n' next) :
    s.status.valid = true ∧ off' = off ∧ n' = n ∧ next = .got := by
  rw [singleRead] at h
  split at h
  · cases h
  · cases h
  · split at h
    · cases h; exact ⟨‹_›, rfl, rfl, rfl⟩
    · cases h

theorem singleRead_no_write (off n : Nat) (result : List Byte → State) (s : State) (p : Nat) (c : RGB) (next : Pos) :
    singleRead off n result s ≠ .write p c next := by
  intro h
  rw [singleRead] at h
  split at h
  · cases h
  · cases h
  · split at h <;> cases h

/-- The FrameWrites of a frame command are those of the metatile its position names (44_metatile_combiner.md R236). -/
theorem frameCommand_write (first : Nat) (after : List Byte → Nat → Pos) (finish : State → State) (s : State) (p : Nat)
    (c : RGB) (next : Pos) (h : frameCommand first after finish s = .write p c next) :
    ∃ pal mt cells n, s.pos = .writing pal mt cells n ∧ p = frameIndex mt (n / 32) (n % 32) ∧
      c = metatilePixel s.cfg.val.planePairSwapped pal cells (n / 32) (n % 32) ∧
      next = afterPixel (after pal mt) pal mt cells n := by
  rw [frameCommand] at h
  split at h
  · cases h
  · cases h
  · cases h; exact ⟨_, _, _, _, ‹_›, rfl, rfl, rfl⟩
  · cases h
  · cases h
  · split at h <;> cases h

/-- The SnapReads of a frame command: a tilemap word, a record, or the palette while VALID (R232, R236). -/
theorem frameCommand_read (first : Nat) (after : List Byte → Nat → Pos) (finish : State → State) (s : State) (off n : Nat)
    (next : List Byte → Pos) (h : frameCommand first after finish s = .read off n next) :
    (∃ pal mt cells, s.pos = .reading pal mt cells ∧ off = s.tilemapOffset mt cells.length ∧ n = 2 ∧
      next = fun bytes => .record pal mt cells (fieldWord bytes 0)) ∨
    (∃ pal mt cells word, s.pos = .record pal mt cells word ∧ off = s.recordOffset (decodeEntry word).tile ∧ n = 32 ∧
      next = fun bytes => afterRecord pal mt (cells ++ [⟨word, bytes⟩])) ∨
    (s.status.valid = true ∧ off = s.paletteOffset ∧ n = 256 ∧ next = fun pal => .reading pal first []) := by
  rw [frameCommand] at h
  split at h
  · cases h; exact .inl ⟨_, _, _, ‹_›, rfl, rfl, rfl⟩
  · cases h; exact .inr (.inl ⟨_, _, _, _, ‹_›, rfl, rfl, rfl⟩)
  · cases h
  · cases h
  · cases h
  · split at h
    · cases h; exact .inr (.inr ⟨‹_›, rfl, rfl, rfl⟩)
    · cases h

/-- Any other step of the core moves the sequencer position and the sink's two lists only (20_memory.md R77 c). -/
theorem perform_not_last (a : Action) (s t : State) (h : perform a s = .next t) (ha : ∀ u, a ≠ .last u) :
    t = { s with pos := t.pos, sink := t.sink, frame := t.frame } := by
  cases a with
  | last u => exact absurd rfl (ha u)
  | read off n next =>
    rcases snapRead_cases s off n next with ⟨h1, -⟩ | ⟨h1, -⟩ | ⟨h1, -⟩ <;> rw [perform, h1] at h <;> cases h <;> rfl
  | write p c next =>
    rw [perform] at h
    cases h
    rcases hs : s.sink with _ | ⟨_ | _, rest⟩
    · rw [frameWrite_silent s p c next hs]
    · rw [frameWrite_ok s p c next rest hs]
    · rw [frameWrite_err s p c next rest hs]

theorem coreStep_sameOutside (i : Instr) (s t : State) (h : coreStep i s = .next t) : s.SameOutside t := by
  rw [coreStep] at h
  by_cases ha : ∃ u, action i s = .last u
  · obtain ⟨u, hu⟩ := ha
    rw [hu] at h
    cases h
    exact (action_last i s _ hu).2.2.2.2.2
  · rw [perform_not_last _ s t h fun u hu => ha ⟨u, hu⟩]
    exact ⟨rfl, rfl, rfl, rfl, rfl, rfl⟩

/-- What no command changes. -/
theorem exec_sameOutside (i : Instr) (s t : State) (h : exec i s = .next t) : s.SameOutside t := by
  rw [exec_eq_run] at h
  exact runCommand_frame (action i) State.SameOutside State.SameOutside.refl State.SameOutside.trans
    (fun s t h => coreStep_sameOutside i s t h) commandFuel s t h

end Sys2Proof.Machine
end

