-- ==== Sys2Proof/Laws/Encoding.lean ====
section
/-! SUPPORT. Fields and masks: an operand below a mask's lowest bit does not reach the bits the mask keeps. -/
namespace Sys2Proof

/-- A number below `2^k` has no bit at `k` or above. -/
theorem getLsbD_ofNat_of_lt (n k i : Nat) (h : n < 2 ^ k) (hi : k ≤ i) : (BitVec.ofNat 32 n).getLsbD i = false := by
  rw [BitVec.getLsbD_ofNat, Nat.testBit_lt_two_pow (lt_of_lt_of_le h (Nat.pow_le_pow_right (by omega) hi))]
  simp

/-- An operand below `2^k` vanishes under a mask whose low `k` bits are 0. -/
theorem ofNat_and_mask (n k : Nat) (m : Word) (h : n < 2 ^ k) (hm : ∀ i, i < k → m.getLsbD i = false) :
    BitVec.ofNat 32 n &&& m = 0#32 := by
  ext i hi
  rcases Nat.lt_or_ge i k with hk | hk
  · have := hm i hk
    simp_all
  · have := getLsbD_ofNat_of_lt n k i h hk
    simp_all

/-- A shifted operand is the operand times the field's weight. -/
theorem ofNat_shiftLeft (n k : Nat) : BitVec.ofNat 32 n <<< k = BitVec.ofNat 32 (n * 2 ^ k) := by
  apply BitVec.eq_of_toNat_eq
  simp [Nat.shiftLeft_eq, Nat.mod_mul_mod]

end Sys2Proof
end

