-- ==== Sys2Proof/Laws/Frame.lean ====
section
/-! SUPPORT. The two phases of a frame command (44_metatile_combiner.md R236): the reads of a metatile's cells, and its
FrameWrites while the sink answers ok. -/
namespace Sys2Proof.Machine

section

variable (first : Nat) (after : List Byte → Nat → Pos) (finish : State → State)

/-- The cells of metatile `mt` as the snapshot holds them. -/
def State.cell (s : State) (mt j : Nat) : Cell :=
  ⟨s.tilemapWord mt j, s.snapBytes (s.recordOffset (s.tilemapWord mt j &&& 0x03FF)) 32⟩

theorem State.fieldWord_tilemap (s : State) (i j : Nat) :
    fieldWord (s.snapBytes (s.tilemapOffset i j) 2) 0 = s.tilemapWord i j := by
  rw [show (0 : Nat) = 2 * 0 from rfl, fieldWord_eq_word16 _ 0 (by simp), byteAt_snapBytes _ _ _ _ (by omega),
    byteAt_snapBytes _ _ _ _ (by omega)]
  rfl

/-- Two states that differ only in what a run of reads changes read the same bytes: the snapshot functions depend on cfg,
FMT_IDX, SNAP and the power-on draw alone. -/
theorem State.cell_with (s : State) (p : Pos) (mt j : Nat) : ({ s with pos := p } : State).cell mt j = s.cell mt j := rfl

/-- One cell: its tilemap word, then its record. -/
theorem runCommand_readCell (n : Nat) (s : State) (pal : List Byte) (mt : Nat) (cells : List Cell)
    (hs : s.pos = .reading pal mt cells)
    (hw : s.Readable (s.tilemapOffset mt cells.length) 2)
    (hr : s.Readable (s.recordOffset (s.tilemapWord mt cells.length &&& 0x03FF)) 32) :
    runCommand (frameCommand first after finish) (n + 2) s =
      runCommand (frameCommand first after finish) n
        { s with pos := afterRecord pal mt (cells ++ [s.cell mt cells.length]) } := by
  rw [runCommand_read _ (n + 1) s (s.tilemapOffset mt cells.length) 2 _ (by simp only [frameCommand, hs]; rfl) hw]
  rw [State.fieldWord_tilemap]
  exact runCommand_read (frameCommand first after finish) n { s with pos := .record pal mt cells (s.tilemapWord mt cells.length) }
    (s.recordOffset (decodeEntry (s.tilemapWord mt cells.length)).tile) 32
    (fun bytes => afterRecord pal mt (cells ++ [⟨s.tilemapWord mt cells.length, bytes⟩])) rfl hr

/-- The cells of metatile `mt` from number `j` on. -/
theorem runCommand_readCells (n m : Nat) (s : State) (pal : List Byte) (mt : Nat)
    (hm : m < 16) (hs : s.pos = .reading pal mt ((List.range (15 - m)).map (s.cell mt)))
    (hread : s.MetatileReadable mt) :
    runCommand (frameCommand first after finish) (n + 2 * (m + 1)) s =
      runCommand (frameCommand first after finish) n
        { s with pos := .writing pal mt ((List.range 16).map (s.cell mt)) 0 } := by
  induction m generalizing s with
  | zero =>
    have h := hread 15 (by omega)
    rw [runCommand_readCell first after finish n s pal mt _ hs (by simpa using h.1) (by simpa using h.2)]
    rfl
  | succ m ih =>
    have h := hread (15 - (m + 1)) (by omega)
    rw [show n + 2 * (m + 1 + 1) = (n + 2 * (m + 1)) + 2 by omega,
      runCommand_readCell first after finish _ s pal mt _ hs (by simpa using h.1) (by simpa using h.2)]
    have hpos : afterRecord pal mt
        ((List.range (15 - (m + 1))).map (s.cell mt) ++ [s.cell mt ((List.range (15 - (m + 1))).map (s.cell mt)).length])
        = .reading pal mt ((List.range (15 - m)).map (s.cell mt)) := by
      rw [afterRecord, if_pos (by simp; omega), show 15 - m = 15 - (m + 1) + 1 by omega, List.range_succ]
      simp
    rw [hpos]
    exact ih { s with pos := .reading pal mt ((List.range (15 - m)).map (s.cell mt)) } (by omega) rfl hread

/-- The first `j` cells of metatile `mt`, the next tilemap word to come. -/
theorem runCommand_readCellsTo (n j : Nat) (s : State) (pal : List Byte) (mt : Nat) (hj : j < 16)
    (hs : s.pos = .reading pal mt [])
    (h : ∀ j', j' < j → s.Readable (s.tilemapOffset mt j') 2 ∧
      s.Readable (s.recordOffset (s.tilemapWord mt j' &&& 0x03FF)) 32) :
    runCommand (frameCommand first after finish) (n + 2 * j) s =
      runCommand (frameCommand first after finish) n
        { s with pos := .reading pal mt ((List.range j).map (s.cell mt)) } := by
  induction j generalizing n with
  | zero => simp [← hs]
  | succ j ih =>
    rw [show n + 2 * (j + 1) = (n + 2) + 2 * j by omega, ih (n + 2) (by omega) (fun j' h' => h j' (by omega))]
    have hl : ((List.range j).map (s.cell mt)).length = j := by simp
    have hr := h j (by omega)
    refine (runCommand_readCell first after finish n { s with pos := .reading pal mt ((List.range j).map (s.cell mt)) }
      pal mt _ rfl (by rw [hl]; exact hr.1) (by rw [hl]; exact hr.2)).trans ?_
    rw [hl, afterRecord, if_pos (by simp; omega), List.range_succ]
    simp
    rfl

/-- The colour the combiner gives pixel `(y, x)` of metatile `i` is the one the rules define for that frame pixel
(45_tileset_rasterizer.md R251). -/
theorem metatilePixel_eq_frameColour (s : State) (i y x : Nat) (hy : y < 32) (hx : x < 32) :
    metatilePixel s.cfg.val.planePairSwapped (s.snapBytes s.paletteOffset 256) ((List.range 16).map (s.cell i)) y x =
      s.frameColour (frameIndex i y x / 512) (frameIndex i y x % 512) := by
  have hX : 32 * (i % 16) + x < 512 := by omega
  have hdiv : frameIndex i y x / 512 = 32 * (i / 16) + y := by rw [frameIndex]; omega
  have hmod : frameIndex i y x % 512 = 32 * (i % 16) + x := by rw [frameIndex]; omega
  rw [hdiv, hmod, metatilePixel, State.frameColour]
  have hj : entryOfPixel y x < 16 := by rw [entryOfPixel]; omega
  have h1 : 16 * ((32 * (i / 16) + y) / 32) + (32 * (i % 16) + x) / 32 = i := by omega
  have h2 : 4 * ((32 * (i / 16) + y) % 32 / 8) + (32 * (i % 16) + x) % 32 / 8 = entryOfPixel y x := by
    rw [entryOfPixel]; omega
  have h3 : (32 * (i / 16) + y) % 8 = y % 8 := by omega
  have h4 : (32 * (i % 16) + x) % 8 = x % 8 := by omega
  simp only [h1, h2, h3, h4, List.getD_eq_getElem?_getD, List.getElem?_map, List.getElem?_range hj, Option.map_some,
    Option.getD_some, State.cell]
  rfl

/-- The FrameWrites of a metatile from number `n` on, while the sink answers ok. -/
theorem runCommand_emit (k m : Nat) (s : State) (mt : Nat) (rest : List SinkAnswer)
    (hm : m ≤ 1023)
    (hs : s.pos = .writing (s.snapBytes s.paletteOffset 256) mt ((List.range 16).map (s.cell mt)) (1023 - m))
    (hsink : s.sink = List.replicate (m + 1) .ok ++ rest) :
    runCommand (frameCommand first after finish) (k + (m + 1)) s =
      runCommand (frameCommand first after finish) k
        { s with pos := after (s.snapBytes s.paletteOffset 256) mt, sink := rest
                 frame := ((List.range' (1023 - m) (m + 1)).map fun n =>
                   s.framePixel (frameIndex mt (n / 32) (n % 32))).reverse ++ s.frame } := by
  have hpix : metatilePixel s.cfg.val.planePairSwapped (s.snapBytes s.paletteOffset 256)
      ((List.range 16).map (s.cell mt)) ((1023 - m) / 32) ((1023 - m) % 32) =
      (s.framePixel (frameIndex mt ((1023 - m) / 32) ((1023 - m) % 32))).colour :=
    metatilePixel_eq_frameColour s mt _ _ (by omega) (by omega)
  induction m generalizing s with
  | zero =>
    rw [runCommand_write_ok _ k s _ _ _ rest (by simp only [frameCommand, hs]; rfl) (by simpa using hsink), hpix]
    rfl
  | succ m ih =>
    rw [show k + (m + 1 + 1) = (k + (m + 1)) + 1 by omega,
      runCommand_write_ok _ _ s _ _ _ (List.replicate (m + 1) .ok ++ rest) (by simp only [frameCommand, hs]; rfl)
        (by rw [hsink]; rfl), hpix]
    have hn : 1023 - (m + 1) + 1 = 1023 - m := by omega
    have hnext : afterPixel (after (s.snapBytes s.paletteOffset 256) mt) (s.snapBytes s.paletteOffset 256) mt
        ((List.range 16).map (s.cell mt)) (1023 - (m + 1)) =
        .writing (s.snapBytes s.paletteOffset 256) mt ((List.range 16).map (s.cell mt)) (1023 - m) := by
      rw [afterPixel, if_pos (by omega), hn]
    have hlist : ((List.range' (1023 - (m + 1)) (m + 1 + 1)).map fun n =>
          s.framePixel (frameIndex mt (n / 32) (n % 32))).reverse ++ s.frame =
        ((List.range' (1023 - m) (m + 1)).map fun n => s.framePixel (frameIndex mt (n / 32) (n % 32))).reverse ++
          s.framePixel (frameIndex mt ((1023 - (m + 1)) / 32) ((1023 - (m + 1)) % 32)) :: s.frame := by
      rw [List.range'_succ, hn]
      simp only [List.map_cons, List.reverse_cons, List.append_assoc, List.singleton_append]
    rw [hnext]
    refine (ih
      { s with sink := List.replicate (m + 1) .ok ++ rest
               frame := s.framePixel (frameIndex mt ((1023 - (m + 1)) / 32) ((1023 - (m + 1)) % 32)) :: s.frame
               pos := .writing (s.snapBytes s.paletteOffset 256) mt ((List.range 16).map (s.cell mt)) (1023 - m) }
      (by omega) rfl rfl (metatilePixel_eq_frameColour s mt _ _ (by omega) (by omega))).trans ?_
    rw [hlist]
    rfl

/-- A whole metatile: its 32 reads and its 1024 FrameWrites. -/
theorem runCommand_metatile (k : Nat) (s : State) (mt : Nat) (rest : List SinkAnswer)
    (hs : s.pos = .reading (s.snapBytes s.paletteOffset 256) mt []) (hread : s.MetatileReadable mt)
    (hsink : s.sink = List.replicate 1024 .ok ++ rest) :
    runCommand (frameCommand first after finish) (k + 1056) s =
      runCommand (frameCommand first after finish) k
        { s with pos := after (s.snapBytes s.paletteOffset 256) mt, sink := rest
                 frame := (s.metatilePixels mt 1024).reverse ++ s.frame } := by
  rw [show k + 1056 = (k + (1023 + 1)) + 2 * (15 + 1) by omega,
    runCommand_readCells first after finish _ 15 s _ mt (by omega) hs hread]
  refine (runCommand_emit first after finish k 1023
    { s with pos := .writing (s.snapBytes s.paletteOffset 256) mt ((List.range 16).map (s.cell mt)) 0 }
    mt rest (le_refl _) rfl hsink).trans ?_
  have hlist : (List.range' (1023 - 1023) (1023 + 1)).map (fun n => s.framePixel (frameIndex mt (n / 32) (n % 32))) =
      s.metatilePixels mt 1024 := by
    rw [State.metatilePixels, List.range_eq_range']
  rw [← hlist]
  exact congrArg (runCommand _ k) rfl

end

end Sys2Proof.Machine
end

