-- ==== Sys2Proof/Laws/PerInstr.lean ====
section
/-! SUPPORT. Per instruction, as syntax: the encoding of a well-formed instruction matches the row of the opcode table that
stands for it (30_encoding.md R110), in the order of the table's rows. -/
namespace Sys2Proof.Laws.MatchesItsRow

/-- The number of an instruction's row in the opcode table (R109). -/
def rowOf : Instr → Nat
  | .nop => 0
  | .validate => 1
  | .clrerr => 2
  | .tmdec _ => 3
  | .tmfetch _ _ => 4
  | .pixidx _ _ _ => 5
  | .palres _ _ => 6
  | .mtbuild _ => 7
  | .raster => 8

def Statement (i : Instr) : Prop :=
  i.wf = true → ∃ r, opcodeTable[rowOf i]? = some r ∧ encode i &&& r.mask = r.matchWord

theorem nop : Statement .nop := fun _ => ⟨_, rfl, by decide⟩

theorem validate : Statement .validate := fun _ => ⟨_, rfl, by decide⟩

theorem clrerr : Statement .clrerr := fun _ => ⟨_, rfl, by decide⟩

theorem tmdec (word : Nat) : Statement (.tmdec word) := fun h =>
  ⟨_, rfl, by
    have hw : word < 2 ^ 16 := by simpa [Instr.wf] using h
    show (0x10000000#32 ||| BitVec.ofNat 32 word) &&& 0xFFFF0000#32 = 0x10000000#32
    rw [BitVec.and_comm, BitVec.and_or_distrib_left, BitVec.and_comm _ (BitVec.ofNat 32 word),
      ofNat_and_mask word 16 _ hw (by decide)]
    decide⟩

theorem tmfetch (mt ent : Nat) : Statement (.tmfetch mt ent) := fun h =>
  ⟨_, rfl, by
    have hw : mt < 2 ^ 8 ∧ ent < 2 ^ 4 := by simpa [Instr.wf] using h
    show (0x11000000#32 ||| (BitVec.ofNat 32 ent <<< 8) ||| BitVec.ofNat 32 mt) &&& 0xFFFFF000#32 = 0x11000000#32
    rw [BitVec.and_comm, BitVec.and_or_distrib_left, BitVec.and_or_distrib_left, ofNat_shiftLeft,
      BitVec.and_comm _ (BitVec.ofNat 32 mt), BitVec.and_comm _ (BitVec.ofNat 32 (ent * 2 ^ 8)),
      ofNat_and_mask mt 12 _ (by omega) (by decide), ofNat_and_mask (ent * 2 ^ 8) 12 _ (by omega) (by decide)]
    decide⟩

theorem pixidx (tile row col : Nat) : Statement (.pixidx tile row col) := fun h =>
  ⟨_, rfl, by
    have hw : (tile < 2 ^ 10 ∧ row < 2 ^ 3) ∧ col < 2 ^ 3 := by simpa [Instr.wf] using h
    show (0x20000000#32 ||| (BitVec.ofNat 32 col <<< 13) ||| (BitVec.ofNat 32 row <<< 10) ||| BitVec.ofNat 32 tile)
      &&& 0xFFFF0000#32 = 0x20000000#32
    rw [BitVec.and_comm, BitVec.and_or_distrib_left, BitVec.and_or_distrib_left, BitVec.and_or_distrib_left,
      ofNat_shiftLeft, ofNat_shiftLeft, BitVec.and_comm _ (BitVec.ofNat 32 tile),
      BitVec.and_comm _ (BitVec.ofNat 32 (row * 2 ^ 10)), BitVec.and_comm _ (BitVec.ofNat 32 (col * 2 ^ 13)),
      ofNat_and_mask tile 16 _ (by omega) (by decide), ofNat_and_mask (row * 2 ^ 10) 16 _ (by omega) (by decide),
      ofNat_and_mask (col * 2 ^ 13) 16 _ (by omega) (by decide)]
    decide⟩

theorem palres (sel idx : Nat) : Statement (.palres sel idx) := fun h =>
  ⟨_, rfl, by
    have hw : sel < 2 ^ 3 ∧ idx < 2 ^ 4 := by simpa [Instr.wf] using h
    show (0x30000000#32 ||| (BitVec.ofNat 32 sel <<< 4) ||| BitVec.ofNat 32 idx) &&& 0xFFFFFF80#32 = 0x30000000#32
    rw [BitVec.and_comm, BitVec.and_or_distrib_left, BitVec.and_or_distrib_left, ofNat_shiftLeft,
      BitVec.and_comm _ (BitVec.ofNat 32 idx), BitVec.and_comm _ (BitVec.ofNat 32 (sel * 2 ^ 4)),
      ofNat_and_mask idx 7 _ (by omega) (by decide), ofNat_and_mask (sel * 2 ^ 4) 7 _ (by omega) (by decide)]
    decide⟩

theorem mtbuild (mt : Nat) : Statement (.mtbuild mt) := fun h =>
  ⟨_, rfl, by
    have hw : mt < 2 ^ 8 := by simpa [Instr.wf] using h
    show (0x40000000#32 ||| BitVec.ofNat 32 mt) &&& 0xFFFFFF00#32 = 0x40000000#32
    rw [BitVec.and_comm, BitVec.and_or_distrib_left, BitVec.and_comm _ (BitVec.ofNat 32 mt),
      ofNat_and_mask mt 8 _ hw (by decide)]
    decide⟩

theorem raster : Statement .raster := fun _ => ⟨_, rfl, by decide⟩

end Sys2Proof.Laws.MatchesItsRow
end

