-- ==== Sys2Proof/Laws/Steps.lean ====
section
/-! SUPPORT. A run of several steps of the machine, one step at a time. -/
namespace Sys2Proof.Machine

theorem core_run_next (n : Nat) (s t : State) (h : step s = .next t) :
    Host.Core.run Sys2Proof.core (n + 1) s = Host.Core.run Sys2Proof.core n t := by
  have hc : Sys2Proof.core.step s = .next t := h
  simp only [Host.Core.run, hc]

theorem core_run_fault (n : Nat) (s : State) (r : Fault) (h : step s = .fault r) :
    Host.Core.run Sys2Proof.core (n + 1) s = .fault r := by
  have hc : Sys2Proof.core.step s = .fault r := h
  simp only [Host.Core.run, hc]

end Sys2Proof.Machine
end

