-- ==== Sys2Proof/Laws/Wait.lean ====
section
/-! SUPPORT. What a poll of the host's WAIT loop does (30_encoding.md R114), case by case. -/
namespace Sys2Proof.Machine

/-- Bit 0 of the word a read of STATUS returns is BUSY (10_state.md R26). -/
theorem readReg_status_bit0 (s : State) : (readReg .status s).getLsbD 0 = s.status.busy := by
  rw [readReg, Status.toWord, BitVec.getLsbD_ofNat, Nat.testBit_zero]
  cases s.status.busy <;> simp <;> omega

theorem waitMove_idle (gaps : List Nat) (s : State) (h : s.status.busy = false) :
    waitMove gaps s = s.answer (.word s.status.toWord) := by
  rw [waitMove, readReg_status_bit0, h]
  rfl

theorem waitMove_busy (gaps : List Nat) (s : State) (h : s.status.busy = true) :
    waitMove gaps s = { s.answer (.word s.status.toWord) with sched := nextPoll gaps ++ s.sched } := by
  rw [waitMove, readReg_status_bit0, h]
  rfl

/-- A poll changes the schedule and the replies only (20_memory.md R73). -/
theorem waitMove_frame (gaps : List Nat) (s : State) :
    waitMove gaps s = { s with sched := (waitMove gaps s).sched, replies := (waitMove gaps s).replies } := by
  cases h : s.status.busy
  · rw [waitMove_idle gaps s h]
    rfl
  · rw [waitMove_busy gaps s h]
    rfl

end Sys2Proof.Machine
end

