-- ==== Sys2Proof/Tests/Slice0.lean ====
section
/-! SUPPORT. Tests. Expected values are those of spec/95_test_vectors.md (its vector V<n>, source item S<n> or program P<n> is
named at each test) or of the rule named. Last: for every statement with hypotheses, a witness that meets them. -/
namespace Sys2Proof.Tests

open Sys2Proof.Machine

/-! ### Well-formedness: an ill-formed term for each check -/

theorem test_wf_tmdec_word : (Instr.tmdec 65536).wf = false := by decide
theorem test_wf_tmfetch_mt : (Instr.tmfetch 256 0).wf = false := by decide
theorem test_wf_tmfetch_ent : (Instr.tmfetch 0 16).wf = false := by decide
theorem test_wf_pixidx_tile : (Instr.pixidx 1024 0 0).wf = false := by decide
theorem test_wf_pixidx_row : (Instr.pixidx 0 8 0).wf = false := by decide
theorem test_wf_pixidx_col : (Instr.pixidx 0 0 8).wf = false := by decide
theorem test_wf_palres_sel : (Instr.palres 8 0).wf = false := by decide
theorem test_wf_palres_idx : (Instr.palres 0 16).wf = false := by decide
theorem test_wf_mtbuild_mt : (Instr.mtbuild 256).wf = false := by decide
theorem test_wf_highest :
    [Instr.tmdec 65535, .tmfetch 255 15, .pixidx 1023 7 7, .palres 7 15, .mtbuild 255].all Instr.wf = true := by decide

/-- 00_scope.md R8, R9: no build with two formats of one size, none, an odd base, or a size above SNAP_MAX. -/
theorem test_build_refused :
    [ { Params.tcfg with formats := [] }, { Params.tcfg with formats := [⟨4, 0⟩, ⟨4, 2⟩] },
      { Params.tcfg with formats := [⟨4, 1⟩] }, { Params.tcfg with formats := [⟨0x10001, 0⟩] },
      { Params.tcfg with snapMax := 0x100000001 } ].all (fun p => (Build.ofParams? p).isNone) = true := by decide

/-! ### Decoding: V60 to V77, and patterns written out -/

def rejects (w : Word) : Bool := match decode w with | .ok _ => false | .error _ => true

theorem test_decode_nop : decodeTableWord 32 0b00000000000000000000000000000000 = some .nop := by decide
theorem test_decode_validate : decodeTableWord 32 0b00000001000000000000000000000000 = some .validate := by decide
theorem test_decode_clrerr : decodeTableWord 32 0b00000010000000000000000000000000 = some .clrerr := by decide
theorem test_decode_tmdec : decodeTableWord 32 0b00010000000000001110010110100011 = some (.tmdec 0xE5A3) := by decide
theorem test_decode_tmfetch : decodeTableWord 32 0b00010001000000000000010000000011 = some (.tmfetch 3 4) := by decide
theorem test_decode_pixidx : decodeTableWord 32 0b00100000000000001100010000000101 = some (.pixidx 5 1 6) := by decide
theorem test_decode_palres : decodeTableWord 32 0b00110000000000000000000000101110 = some (.palres 2 14) := by decide
theorem test_decode_mtbuild : decodeTableWord 32 0b01000000000000000000000000010001 = some (.mtbuild 17) := by decide
theorem test_decode_raster : decodeTableWord 32 0b01010000000000000000000000000000 = some .raster := by decide
theorem test_decode_illegal :
    [0x00000001#32, 0x03000000#32, 0x10FF0000#32, 0x11001000#32, 0x20010000#32, 0x30000080#32, 0x40000100#32,
      0x50000001#32, 0x60000000#32, 0xFF000000#32].all rejects = true := by decide
theorem test_decode_names_the_reason :
    decode 0x03000000#32 = .error (.unassignedOpcode 3) ∧ decode 0x00000001#32 = .error (.reservedBits 0) ∧
      decodeBytes [0#8] = .error (.notOneWord 1) := by decide
theorem test_encode :
    [Instr.tmfetch 255 15, .pixidx 0x380 0 0, .pixidx 5 6 7, .palres 7 15].map encode =
      [0x11000FFF#32, 0x20000380#32, 0x2000F805#32, 0x3000007F#32] := by decide

/-- R113. -/
theorem test_assemble :
    assembleLine ['P', 'A', 'L', 'R', 'E', 'S', ' ', '2', ',', ' ', '0', 'x', 'E', ' ', ';', 'x'] =
      .ok (some 0x3000002E#32) := by decide
theorem test_assemble_out_of_range :
    assembleLine ['M', 'T', 'B', 'U', 'I', 'L', 'D', ' ', '2', '5', '6'] = .error .outOfRange := by decide

/-! ### The sub-units' functions -/

/-- V1, V3. -/
theorem test_bswap : bswap [0x12#8, 0x34#8, 0x56#8, 0x78#8] = [0x34#8, 0x12#8, 0x78#8, 0x56#8] := by decide
theorem test_fieldWord : fieldWord [0xA3#8, 0xE5#8] 0 = 0xE5A3 := by decide
/-- V12, V13. -/
theorem test_decodeEntry : decodeEntry 0xE5A3 = ⟨419, 1, true, true, true⟩ := by decide
theorem test_decodeEntry_plain : decodeEntry 0x1234 = ⟨564, 4, false, false, false⟩ := by decide

/-- V25's gradient record. -/
def gradient : List Byte :=
  [0x55, 0x33, 0x55, 0x33, 0x55, 0x33, 0x55, 0x33, 0x55, 0x33, 0x55, 0x33, 0x55, 0x33, 0x55, 0x33] ++
  [0x0F, 0x00, 0x0F, 0xFF, 0x0F, 0x00, 0x0F, 0xFF, 0x0F, 0x00, 0x0F, 0xFF, 0x0F, 0x00, 0x0F, 0xFF]

/-- V25. -/
theorem test_gradient : (decodeTile false gradient).take 2 =
    [[0, 1, 2, 3, 4, 5, 6, 7], [8, 9, 10, 11, 12, 13, 14, 15]] := by decide
/-- V27. -/
theorem test_gradient_swapped : (decodeTile true gradient).take 2 =
    [[0, 2, 1, 3, 8, 10, 9, 11], [4, 6, 5, 7, 12, 14, 13, 15]] := by decide
/-- V31. -/
theorem test_unpackColour : [0x7623, 0x8000, 0x0421, 0xFFFF].map (fun v => packRgb (unpackColour v)) =
    [0x00EE8B18, 0x00000000, 0x00080808, 0x00FFFFFF] := by decide
/-- V41, V42. -/
theorem test_frameIndex : frameIndex 17 31 31 = 32319 ∧ frameIndex 255 0 0 = 246240 := by decide
theorem test_rasterIndex : rasterIndex 0 = 0 ∧ rasterIndex (1024 * 18 + 32 * 8 + 13) = 20557 := by decide

/-! ### One command at a time -/

/-- What a state function gives of the next state. -/
def after {α : Type} (r : Result) (f : State → α) : Option α :=
  match r with
  | .next t => some (f t)
  | .fault _ => none
  | .refused _ => none

/-- A TCFG block with a loaded snapshot size, validated as format `k`, and some bytes written. -/
def loaded (k size : Nat) (bytes : Memory) : State :=
  { State.powerOn .tcfg 0 with
    snapSize := BitVec.ofNat 32 size, fmtIdx := BitVec.ofNat 32 k, snap := bytes
    status := { Status.reset with valid := true } }

/-- A word accepted. -/
def issued (i : Instr) (s : State) : State := s.accept (encode i)

/-- The command accepted and run, seen through `f`. -/
def ran {α : Type} (i : Instr) (s : State) (f : State → α) : Option α := after (exec i (issued i s)) f

/-- V80, V81. -/
theorem test_reset_status : readReg .status State.reset = 0#32 := by decide
theorem test_nop : ran .nop (State.powerOn .tcfg 0) (fun t => t.status.toWord) = some 0x2#32 := by decide
/-- V83, V84. -/
theorem test_validate : ran .validate { State.powerOn .tcfg 0 with snapSize := 0xA200#32 }
    (fun t => (t.fmtIdx, t.base, t.status.toWord)) = some (1#32, 0x100, 0x6#32) := by decide
theorem test_validate_invalidSize : ran .validate (State.powerOn .tcfg 0)
    (fun t => (t.fmtIdx, t.status.toWord)) = some (0#32, 0x18#32) := by decide
/-- V88. -/
theorem test_clrerr : ran .clrerr
    { State.powerOn .tcfg 0 with status := { Status.reset with valid := true, cmdOvf := true, wlock := true } }
    (fun t => t.status.toWord) = some 0x6#32 := by decide
/-- V12. -/
theorem test_tmdec : ran (.tmdec 0xE5A3) (State.powerOn .tcfg 0) (fun t => (t.resEntry, t.status.toWord)) =
    some (0xE5A3#32, 0x2#32) := by decide
/-- P1; V21. -/
theorem test_tmfetch : ran (.tmfetch 255 15) (loaded 0 0xA100 [(0x1FFE, 0x34#8), (0x1FFF, 0x12#8)])
    (fun t => (t.resEntry, t.status.toWord)) = some (0x1234#32, 0x6#32) := by decide
theorem test_tmfetch_notValidated : ran (.tmfetch 0 0) (State.powerOn .tcfg 0) (fun t => t.status.toWord) =
    some 0x58#32 := by decide

def cellsAt (off : Nat) : List Byte → Memory
  | [] => []
  | b :: bs => (off, b) :: cellsAt (off + 1) bs

/-- V28a. -/
theorem test_pixidx : ran (.pixidx 5 1 6) (loaded 0 0xA100 (cellsAt 0x20A0 gradient))
    (fun t => (t.resIndex, t.status.toWord)) = some (14#32, 0x6#32) := by decide
/-- V28f. -/
theorem test_pixidx_outOfRange : ran (.pixidx 0x380 0 0) (loaded 2 0x9000 [])
    (fun t => (t.errAddr, t.status.toWord)) = some (0x9000#32, 0x2C#32) := by decide
/-- V36, V36b. -/
theorem test_palres_sentinel : ran (.palres 0 0) (loaded 2 0x9000 []) (fun t => (t.resRgb, t.status.toWord)) =
    some (0x00010101#32, 0x6#32) := by decide
theorem test_palres_outOfRange : ran (.palres 0 1) (loaded 2 0x9000 []) (fun t => (t.errAddr, t.status.toWord)) =
    some (0xA000#32, 0x2C#32) := by decide
/-- V33: the palette colour is read from its two stored bytes. -/
theorem test_palres : ran (.palres 2 14) (loaded 0 0xA100 [(0xA05C, 0x23#8), (0xA05D, 0x76#8)])
    (fun t => t.resRgb) = some 0x00EE8B18#32 := by decide
/-- Metatile 17's tilemap words and record 0 written with zeros (V44). -/
def metatile17 : State :=
  loaded 0 0xA100 (cellsAt 0x220 (List.replicate 32 0#8) ++ cellsAt 0x2000 (List.replicate 32 0#8))

/-- V44: the sink answers err to the first pixel, or to the sixth. -/
theorem test_mtbuild_writeFailure : ran (.mtbuild 17) { metatile17 with sink := [.err] }
    (fun t => (t.errAddr, t.status.toWord, t.frame)) = some (0x4020#32, 0x3C#32, []) := by decide +kernel
theorem test_mtbuild_pixels : ran (.mtbuild 17) { metatile17 with sink := [.ok, .ok, .ok, .ok, .ok, .err] }
    (fun t => (t.errAddr, t.frame.map Pixel.index, t.frame.all fun p => p.colour == ⟨1#8, 1#8, 1#8⟩)) =
    some (0x4025#32, [16420, 16419, 16418, 16417, 16416], true) := by decide +kernel
/-- P3: entry 4 of metatile 0 names tile 1, palette 2, all of whose pixels have index 1, a red; every other entry is 0. -/
def p3 : State :=
  loaded 0 0xA100 (cellsAt 0 (List.replicate 8 0#8 ++ [0x01#8, 0x08#8] ++ List.replicate 22 0#8) ++
    cellsAt 0x2000 (List.replicate 32 0#8 ++ (List.replicate 8 [0xFF#8, 0x00#8]).flatten ++ List.replicate 16 0#8) ++
    cellsAt 0xA042 [0x1F#8, 0x00#8])

set_option maxRecDepth 100000 in
theorem test_mtbuild_completes : ran (.mtbuild 0) { p3 with sink := List.replicate 1024 .ok }
    (fun t => (t.status.toWord, t.frame.length, t.frame.all fun p => p.colour ==
      if 8 ≤ p.index / 512 && p.index / 512 < 16 && p.index % 512 < 8 then ⟨255#8, 0#8, 0#8⟩ else ⟨1#8, 1#8, 1#8⟩)) =
    some (0x6#32, 1024, true) := by decide +kernel
/-- V45. -/
theorem test_mtbuild_outOfRange : ran (.mtbuild 0) (loaded 2 0x9000 []) (fun t => (t.errAddr, t.status.toWord)) =
    some (0xA000#32, 0x2C#32) := by decide
/-- V51. -/
theorem test_raster_outOfRange : ran .raster (loaded 2 0x9000 []) (fun t => (t.errAddr, t.status.toWord, t.frame)) =
    some (0xA000#32, 0x2C#32, []) := by decide
/-- V45: FRAME_VALID is cleared at acceptance even though the command then fails. -/
theorem test_raster_notValidated : ran .raster
    { State.powerOn .tcfg 0 with status := { Status.reset with done := true, frameValid := true } }
    (fun t => t.status.toWord) = some 0x58#32 := by decide

/-! ### The host's ports -/

/-- One host access. -/
def accessed {α : Type} (a : Access) (s : State) (f : State → α) : Option α :=
  after (step { s with sched := [.host a] }) f

/-- V78: an illegal word, by the next step after its acceptance. -/
theorem test_illegal : after (step ((loaded 0 0xA100 []).withFetchWord 32 0x40000100)) (fun t => t.status.toWord) =
    some 0x4C#32 := by decide
/-- V85. -/
theorem test_snapWrite : accessed (.snapWrite 5 0x00#8) (loaded 0 0xA100 []) (fun t => (t.snap, t.status.toWord)) =
    some ([(5, 0#8)], 0#32) := by decide
/-- V86, V87: dropped while BUSY. -/
theorem test_cmd_busy : accessed (.regWrite 32 0x08 0#32) (issued .raster (loaded 0 0xA100 []))
    (fun t => (t.latch, t.status.toWord)) = some (some 0x50000000#32, 0x205#32) := by decide
theorem test_snapWrite_busy : accessed (.snapWrite 5 1#8) (issued .raster (loaded 0 0xA100 []))
    (fun t => (t.snap, t.status.toWord)) = some ([], 0x405#32) := by decide
/-- V89, V90, V91, V92. -/
theorem test_cmd_reads_zero : accessed (.regRead 32 0x08) (issued .raster (loaded 0 0xA100 []))
    (fun t => t.replies) = some [.word 0#32] := by decide
theorem test_bus_errors : [Access.regRead 32 0x24, .regWrite 16 0x04 0#32, .regRead 32 0x02, .snapRead 0x10000].map
    (fun a => accessed a (State.powerOn .tcfg 0) (fun t => t.replies)) = List.replicate 4 (some [Reply.busError]) := by
  decide
/-- V93. -/
theorem test_srst : accessed (.regWrite 32 0x00 1#32) (issued .raster (loaded 0 0xA100 [(5, 7#8)]))
    (fun t => (t.status.toWord, t.snapSize, t.snap, t.latch)) = some (0#32, 0#32, [(5, 7#8)], none) := by decide

/-- R114: a poll that reads bit 0 = 1 goes back to the loop, one that reads 0 leaves it. -/
theorem test_wait_busy : after (step { issued .nop (loaded 0 0xA100 []) with sched := [.wait [2], .core] })
    (fun t => (t.sched, t.replies)) = some ([.core, .core, .wait [], .core], [.word 0x5#32]) := by decide
theorem test_wait_idle : after (step { loaded 0 0xA100 [] with sched := [.wait [], .core] })
    (fun t => (t.sched, t.replies)) = some ([.core], [.word 0x4#32]) := by decide
/-- R114's expansions. -/
theorem test_hostProgram : HostProgram.fill 0x10 2 0xAA#8 ++ HostProgram.run .validate 1 [] ++ HostProgram.srst =
    [.host (.snapWrite 0x10 0xAA#8), .host (.snapWrite 0x11 0xAA#8), .host (.regWrite 32 0x08 0x01000000#32), .core,
      .wait [], .host (.regWrite 32 0x00 1#32)] := by decide

/-! ### Witnesses: states and operands that meet the hypotheses of each statement, clause by clause -/

/-- TCFG, format F0: every region lies inside the snapshot. -/
def ready : State := loaded 0 0xA100 []

/-- A command in flight, nothing scheduled. -/
def flying (i : Instr) : State := issued i ready

def faultBuild : Build := ⟨{ Params.tcfg with unwrittenSnapRead := .fault }, by decide⟩

/-- A build whose tilemap is the last region of a snapshot two bytes too short for it. -/
def lateTilemap : Build :=
  ⟨{ Params.tcfg with formats := [⟨0xA0FE, 0⟩], tilemapLa := 0x8100, gfxLa := 0x100, palLa := 0 }, by decide⟩

/-- A build whose snapshot ends where its records begin. -/
def noRecords : Build :=
  ⟨{ Params.tcfg with formats := [⟨0x2100, 0⟩], tilemapLa := 0x100, gfxLa := 0x2100, palLa := 0 }, by decide⟩

def readyOf (c : Build) (size : Nat) : State :=
  { State.powerOn c 0 with snapSize := BitVec.ofNat 32 size, status := { Status.reset with valid := true } }

theorem readyOf_readable (c : Build) (size off n : Nat) (hc : c.val.unwrittenSnapRead = .value) (hs : size < 2 ^ 32)
    (h : off + n ≤ size) : (readyOf c size).Readable off n :=
  ⟨by simp only [readyOf, BitVec.toNat_ofNat]; omega, .inl hc⟩

theorem tile_bound (w : Nat) : w &&& 0x03FF ≤ 1023 := Nat.and_le_right

theorem ready_readable (off n : Nat) (h : off + n ≤ 0xA100) : ready.Readable off n := ⟨h, .inl rfl⟩

theorem ready_metatile (mt : Nat) (h : mt < 256) : ready.MetatileReadable mt := fun j hj =>
  ⟨ready_readable _ _ (show 0 + 0 + 32 * mt + 2 * j + 2 ≤ 0xA100 by omega),
    ready_readable _ _ (show 0 + 0x2000 + 32 * (ready.tilemapWord mt j &&& 0x03FF) + 32 ≤ 0xA100 by
      have := tile_bound (ready.tilemapWord mt j); omega)⟩

theorem ready_palette : ready.Readable ready.paletteOffset 256 := ready_readable _ _ (by decide)

/-- Every tilemap word but the last of metatile 255, and every record, is readable; that word is not. -/
theorem lateTilemap_fails : (readyOf lateTilemap 0xA0FE).ReadFailsAt 255 15 0xA0FE ∧
    ∀ mt j, 16 * mt + j < 4095 → (readyOf lateTilemap 0xA0FE).Readable ((readyOf lateTilemap 0xA0FE).tilemapOffset mt j) 2 ∧
      (readyOf lateTilemap 0xA0FE).Readable ((readyOf lateTilemap 0xA0FE).recordOffset
        ((readyOf lateTilemap 0xA0FE).tilemapWord mt j &&& 0x03FF)) 32 := by
  have h : ∀ mt j, 16 * mt + j < 4095 →
      (readyOf lateTilemap 0xA0FE).Readable ((readyOf lateTilemap 0xA0FE).tilemapOffset mt j) 2 ∧
      (readyOf lateTilemap 0xA0FE).Readable ((readyOf lateTilemap 0xA0FE).recordOffset
        ((readyOf lateTilemap 0xA0FE).tilemapWord mt j &&& 0x03FF)) 32 := fun mt j hj =>
    ⟨readyOf_readable _ _ _ _ rfl (by decide) (show 0 + 0x8100 + 32 * mt + 2 * j + 2 ≤ 0xA0FE by omega),
      readyOf_readable _ _ _ _ rfl (by decide)
        (show 0 + 0x100 + 32 * ((readyOf lateTilemap 0xA0FE).tilemapWord mt j &&& 0x03FF) + 32 ≤ 0xA0FE by
          have := tile_bound ((readyOf lateTilemap 0xA0FE).tilemapWord mt j); omega)⟩
  exact ⟨⟨by decide, fun j hj => h 255 j (by omega), .inl ⟨by decide, by decide⟩⟩, h⟩

theorem noRecords_fails : ∃ off, (readyOf noRecords 0x2100).ReadFailsAt 0 0 off :=
  ⟨_, by decide, fun j hj => absurd hj (by omega),
    .inr ⟨readyOf_readable _ _ _ _ rfl (by decide) (by decide), rfl,
      show 0x2100 < 0 + 0x2100 + 32 * ((readyOf noRecords 0x2100).tilemapWord 0 0 &&& 0x03FF) + 32 by omega⟩⟩

theorem next_of_after {α : Type} {r : Result} {f : State → α} {x : α} (h : after r f = some x) :
    ∃ t, r = .next t ∧ f t = x := by
  cases r with
  | next t => exact ⟨t, rfl, Option.some.inj h⟩
  | fault _ => cases h
  | refused _ => cases h

theorem ready_inv : ready.Inv where
  status := ⟨by decide, by decide, by decide, by decide⟩
  idle := fun _ => ⟨rfl, rfl⟩
  inFlight := fun _ h => by cases h
  valid := fun _ => ⟨⟨0xA100, 0⟩, by decide, by decide⟩
  reserved := by decide
  snapWf := by decide
  snapBound := fun _ h => by cases h

/-- The state after a RASTER that completed: the frame the sink holds, FRAME_VALID set. -/
def rastered : State :=
  { ready with
    status := { ready.status with done := true, frameValid := true }
    frame := ((List.range 262144).map fun k => ready.framePixel (rasterIndex k)).reverse }

theorem rastered_inv : rastered.Inv where
  status := ⟨by decide, by decide, by decide, by decide⟩
  idle := fun _ => ⟨rfl, rfl⟩
  inFlight := fun _ h => by cases h
  valid := fun _ => ⟨⟨0xA100, 0⟩, by decide, by decide⟩
  reserved := by decide
  snapWf := by decide
  snapBound := fun _ h => by cases h

theorem rastered_frameInv : rastered.FrameInv := by
  refine ⟨fun _ => ?_, fun k h => by simp [rastered, ready, loaded, State.powerOn, State.rasterCount] at h⟩
  rw [State.NewestAreRaster, rastered, List.map_reverse, List.map_map]
  exact List.prefix_refl _

/-- RASTER in flight with the palette read. -/
def rastering : State := { flying .raster with pos := .reading (List.replicate 256 0#8) 0 [] }

theorem rastering_inv : rastering.Inv where
  status := ⟨by decide, by decide, by decide, by decide⟩
  idle := fun h => by cases h
  inFlight := fun w h => by
    obtain rfl : 0x50000000#32 = w := Option.some.inj h
    exact ⟨rfl, fun _ => rfl, fun _ => rfl, show 0 < 256 ∧ _ ∧ 0 < 16 ∧ _ from
      ⟨by decide, List.length_replicate, by decide, fun _ h => by cases h⟩⟩
  valid := fun _ => ⟨⟨0xA100, 0⟩, by decide, by decide⟩
  reserved := by decide
  snapWf := by decide
  snapBound := fun _ h => by cases h

theorem rastering_frameInv : rastering.FrameInv := by
  refine ⟨(nomatch ·), fun k h => ?_⟩
  have hk : rastering.rasterCount = some 0 := by decide
  rw [hk] at h
  obtain rfl := Option.some.inj h
  exact List.nil_prefix

theorem witness_DecodeInvertsEncode : (Instr.pixidx 1023 7 7).wf = true := by decide
theorem witness_EncodeInvertsDecode : decode 0x2000FFFF#32 = .ok (.pixidx 1023 7 7) := by decide
theorem witness_DecodeIsTheMatchingRow : ∃ r ∈ opcodeTable, 0x2000FFFF#32 &&& r.mask = r.matchWord := by decide
theorem witness_IllegalEncodingsAbort : illegalEncoding 0x03000000#32 ∧ illegalEncoding 0x00000001#32 ∧
    illegalEncoding 0x10010000#32 ∧ illegalEncoding 0x11001000#32 ∧ illegalEncoding 0x30000080#32 ∧
    illegalEncoding 0x40000100#32 ∧ illegalEncoding 0x50FFFFFF#32 ∧
    ∀ w : Word, ∃ s : State, s.latch = some w ∧ s.sched = [] := by
  unfold illegalEncoding
  exact ⟨by decide, by decide, by decide, by decide, by decide, by decide, by decide,
    fun w => ⟨{ ready with latch := some w }, rfl, rfl⟩⟩
theorem witness_AssembledLinesDecode : assembleLine ['R', 'A', 'S', 'T', 'E', 'R', ';'] = .ok (some 0x50000000#32) := by
  decide
theorem witness_ResetsLeaveResetValues :
    (∃ s t : State, s.sched = [.powerOn] ∧ step s = .next t) ∧
    ∃ s t : State, s.sched = [.host (.regWrite 32 0x00 0xFFFFFFFF#32)] ∧ (0xFFFFFFFF#32).getLsbD 0 = true ∧
      step s = .next t :=
  ⟨⟨{ flying .raster with sched := [.powerOn] }, _, rfl, rfl⟩,
    { flying .raster with sched := [.host (.regWrite 32 0x00 0xFFFFFFFF#32)] }, _, rfl, by decide, rfl⟩
theorem witness_SoftResetStopsTheCommand : (1#32).getLsbD 0 = true ∧ (0xFFFFFFFF#32).getLsbD 0 = true ∧
    (∃ s : State, s.sched = [.host (.regWrite 32 0x00 1#32)] ∧ ∃ pal mt cells n, s.pos = .writing pal mt cells n) ∧
    ∃ s : State, s.sched = [.host (.regWrite 32 0x00 1#32)] ∧ ¬ ∃ pal mt cells n, s.pos = .writing pal mt cells n :=
  ⟨by decide, by decide,
    ⟨{ flying .raster with sched := [.host (.regWrite 32 0x00 1#32)], pos := .writing [] 255 [] 1023 }, rfl,
      [], 255, [], 1023, rfl⟩,
    { ready with sched := [.host (.regWrite 32 0x00 1#32)] }, rfl, fun ⟨_, _, _, _, h⟩ => by cases h⟩
theorem witness_StepKeepsInv : rastering.Inv ∧ ∃ t, step { rastering with sched := [.core] } = .next t :=
  ⟨rastering_inv, _, rfl⟩
theorem witness_StepKeepsFrameInv :
    (rastered.Inv ∧ rastered.FrameInv ∧ ∃ t, step rastered = .next t) ∧
    rastering.Inv ∧ rastering.FrameInv ∧ rastering.rasterCount = some 0 :=
  ⟨⟨rastered_inv, rastered_frameInv, _, rfl⟩, rastering_inv, rastering_frameInv, by decide⟩
theorem witness_StepRunsLatchedCommand : ∀ sched ∈ [[], [Move.run], [Move.core]],
    ∃ s : State, s.latch = some 0x50000000#32 ∧ decode 0x50000000#32 = .ok .raster ∧ s.sched = sched :=
  fun sched _ => ⟨{ flying .raster with sched := sched }, rfl, by decide, rfl⟩
theorem witness_IssuedCommandRunsNext : decodeTableWord 32 0x11000FFF = some (.tmfetch 255 15) ∧
    decodeTableWord 32 0x50000000 = some .raster := by decide
theorem witness_StepTakesTheNextMove :
    (∃ s : State, s.sched = [.host (.snapRead 0xFFFF)]) ∧ (ready.sched = [] ∧ ready.latch = none) ∧
    ∀ m ∈ [Move.core, Move.run], ∃ s : State, s.sched = [m] ∧ s.latch = none :=
  ⟨⟨{ ready with sched := [.host (.snapRead 0xFFFF)] }, rfl⟩, ⟨rfl, rfl⟩, fun m _ => ⟨{ ready with sched := [m] }, rfl, rfl⟩⟩
/-- A TMFETCH in flight on a build that takes `fault`, and on one that takes `value`. -/
theorem witness_ExecIsItsCoreSteps :
    (∃ t, (flying (.tmfetch 255 15)).latch = some 0x11000FFF#32 ∧ decode 0x11000FFF#32 = .ok (.tmfetch 255 15) ∧
      (flying (.tmfetch 255 15)).sched = [] ∧ exec (.tmfetch 255 15) (flying (.tmfetch 255 15)) = .next t) ∧
    exec (.tmfetch 255 15) { flying (.tmfetch 255 15) with cfg := faultBuild } = .fault (.unwrittenSnapRead 0x1FFE) := by
  refine ⟨?_, by rfl⟩
  obtain ⟨t, h, -⟩ := next_of_after (r := exec (.tmfetch 255 15) (flying (.tmfetch 255 15)))
    (f := fun t => t.status.toWord) (x := 0x6#32) (by decide)
  exact ⟨t, rfl, by decide, rfl, h⟩
theorem witness_ResultsAppearOnlyAtTheEnd : (flying .raster).latch = some 0x50000000#32 ∧
    ∃ t, coreStep .raster (flying .raster) = .next t ∧ t.latch = some 0x50000000#32 :=
  ⟨rfl, next_of_after (f := State.latch) (by decide)⟩
theorem witness_IdleCmdWriteIsAccepted : ∀ w ∈ [0x400000FF#32, 0x50000000#32, 0x00000000#32, 0xFF000000#32],
    ∃ s : State, s.status.busy = false ∧ s.sched = [.host (.regWrite 32 0x08 w)] :=
  fun w _ => ⟨{ ready with sched := [.host (.regWrite 32 0x08 w)] }, rfl, rfl⟩
theorem witness_IdleCmdWriteIsAccepted_clauses : decode 0x400000FF#32 = .ok (.mtbuild 255) ∧
    decode 0x50000000#32 = .ok .raster ∧
    ¬ ((∃ mt, decode 0x00000000#32 = .ok (.mtbuild mt)) ∨ decode 0x00000000#32 = .ok .raster) := by
  have h : decode 0x00000000#32 = .ok .nop := by decide
  refine ⟨by decide, by decide, ?_⟩
  rw [h]
  rintro (⟨mt, h⟩ | h) <;> cases h
theorem witness_CmdWriteIssuesOrIsDropped :
    (∃ s : State, s.sched = [.host (.regRead 32 0x08)]) ∧
    (∃ s : State, s.status.busy = false ∧ s.sched = [.host (.regWrite 32 0x08 0xFFFFFFFF#32)]) ∧
    ∃ s : State, s.status.busy = true ∧ s.sched = [.host (.regWrite 32 0x08 0#32)] :=
  ⟨⟨{ flying .raster with sched := [.host (.regRead 32 0x08)] }, rfl⟩,
    ⟨{ ready with sched := [.host (.regWrite 32 0x08 0xFFFFFFFF#32)] }, rfl, rfl⟩,
    { flying .raster with sched := [.host (.regWrite 32 0x08 0#32)] }, rfl, rfl⟩
theorem witness_SnapshotWritesAndTheWriteLock :
    (∃ s : State, s.status.busy = false ∧ 0xFFFF < s.cfg.val.snapMax ∧ s.sched = [.host (.snapWrite 0xFFFF 1#8)]) ∧
    (∃ s : State, s.status.busy = false ∧ s.sched = [.host (.regWrite 32 0x0C 0xFFFFFFFF#32)]) ∧
    (∃ s : State, s.status.busy = true ∧ s.sched = [.host (.snapWrite 0xFFFF 1#8)] ∧ 0xFFFF < s.cfg.val.snapMax) ∧
    ∃ s : State, s.status.busy = true ∧ s.sched = [.host (.regWrite 32 0x0C 0#32)] :=
  ⟨⟨{ ready with sched := [.host (.snapWrite 0xFFFF 1#8)] }, rfl, by decide, rfl⟩,
    ⟨{ ready with sched := [.host (.regWrite 32 0x0C 0xFFFFFFFF#32)] }, rfl, rfl⟩,
    ⟨{ flying .raster with sched := [.host (.snapWrite 0xFFFF 1#8)] }, rfl, rfl, by decide⟩,
    { flying .raster with sched := [.host (.regWrite 32 0x0C 0#32)] }, rfl, rfl⟩
theorem witness_SnapshotPortReads :
    (∃ s : State, s.sched = [.host (.snapRead 0xFFFF)] ∧ 0xFFFF < s.cfg.val.snapMax) ∧
    (∃ s : State, s.sched = [.host (.snapRead 0x10000)] ∧ s.cfg.val.snapMax ≤ 0x10000) ∧
    ∃ s : State, s.status.busy = false ∧ 0xFFFF < s.cfg.val.snapMax ∧
      s.sched = [.host (.snapWrite 0xFFFF 7#8), .host (.snapRead 0xFFFF)] :=
  ⟨⟨{ flying .raster with sched := [.host (.snapRead 0xFFFF)] }, rfl, by decide⟩,
    ⟨{ ready with sched := [.host (.snapRead 0x10000)] }, rfl, by decide⟩,
    { ready with sched := [.host (.snapWrite 0xFFFF 7#8), .host (.snapRead 0xFFFF)] }, rfl, by decide, rfl⟩
theorem witness_InvalidAccessesChangeNothing :
    ∀ a ∈ [Access.regRead 16 0x00, .regWrite 8 0x04 1#32, .regRead 32 0x22, .regWrite 32 0x24 0#32, .regRead 32 0x3C,
      .snapRead 0x10000, .snapWrite 0x10000 0#8],
    (∃ s : State, s.sched = [.host a]) ∧
    ((∃ width off v, (a = .regRead width off ∨ a = .regWrite width off v) ∧ (width ≠ 32 ∨ off % 4 ≠ 0 ∨ 0x24 ≤ off)) ∨
      ∃ off v, (a = .snapRead off ∨ a = .snapWrite off v) ∧ Params.tcfg.snapMax ≤ off) := by
  intro a ha
  refine ⟨⟨{ ready with sched := [.host a] }, rfl⟩, ?_⟩
  simp only [List.mem_cons, List.not_mem_nil, or_false] at ha
  rcases ha with rfl | rfl | rfl | rfl | rfl | rfl | rfl
  · exact .inl ⟨16, 0x00, 0#32, .inl rfl, by decide⟩
  · exact .inl ⟨8, 0x04, 1#32, .inr rfl, by decide⟩
  · exact .inl ⟨32, 0x22, 0#32, .inl rfl, by decide⟩
  · exact .inl ⟨32, 0x24, 0#32, .inr rfl, by decide⟩
  · exact .inl ⟨32, 0x3C, 0#32, .inl rfl, by decide⟩
  · exact .inr ⟨0x10000, 0#8, .inl rfl, by decide⟩
  · exact .inr ⟨0x10000, 0#8, .inr rfl, by decide⟩
theorem witness_RegisterReadsHaveNoSideEffect :
    ∀ r ∈ [Reg.ctrl, .status, .cmd, .snapSize, .fmtIdx, .resEntry, .resIndex, .resRgb, .errAddr],
    ∃ s : State, s.sched = [.host (.regRead 32 r.offset)] :=
  fun r _ => ⟨{ flying .raster with sched := [.host (.regRead 32 r.offset)] }, rfl⟩
theorem witness_WritesWithoutEffect :
    (∀ r ∈ [Reg.status, .fmtIdx, .resEntry, .resIndex, .resRgb, .errAddr],
      ∃ s : State, s.sched = [.host (.regWrite 32 r.offset 0xFFFFFFFF#32)]) ∧
    ∃ s : State, s.sched = [.host (.regWrite 32 Reg.ctrl.offset 0xFFFFFFFE#32)] ∧ (0xFFFFFFFE#32).getLsbD 0 = false :=
  ⟨fun r _ => ⟨{ ready with sched := [.host (.regWrite 32 r.offset 0xFFFFFFFF#32)] }, rfl⟩,
    { ready with sched := [.host (.regWrite 32 Reg.ctrl.offset 0xFFFFFFFE#32)] }, rfl, by decide⟩
theorem witness_ValidateSelectsTheFormatOrAborts :
    (∃ s : State, s.cfg.val.formats[2]? = some ⟨0x9000, 0⟩ ∧ 0x9000 = s.snapSize.toNat) ∧
    ∃ s : State, ∀ f ∈ s.cfg.val.formats, f.size ≠ s.snapSize.toNat :=
  ⟨⟨loaded 0 0x9000 [], by decide, by decide⟩, State.powerOn .tcfg 0, by decide⟩
theorem witness_TmdecCompletes : 0xFFFF < 2 ^ 16 := by decide
theorem witness_TmfetchCompletes : ready.pos = .start ∧ ready.status.valid = true ∧
    ready.cfg.val.formats[ready.fmtIdx.toNat]? = some ⟨0xA100, 0⟩ ∧
    0x1FFE = 0 + ready.cfg.val.tilemapLa + 32 * 255 + 2 * 15 ∧ ready.Readable 0x1FFE 2 :=
  ⟨rfl, rfl, by decide, by decide, ready_readable _ _ (by decide)⟩
theorem witness_PixidxCompletes : 7 < 8 ∧ ready.pos = .start ∧ ready.status.valid = true ∧
    ready.cfg.val.formats[ready.fmtIdx.toNat]? = some ⟨0xA100, 0⟩ ∧ 0x9FE0 = 0 + ready.cfg.val.gfxLa + 32 * 1023 ∧
    ready.Readable 0x9FE0 32 :=
  ⟨by decide, rfl, rfl, by decide, by decide, ready_readable _ _ (by decide)⟩
/-- The region of the palette is out of range here. -/
theorem witness_PalresSentinel : (loaded 2 0x9000 []).status.valid = true := rfl
theorem witness_PalresCompletes : 7 < 8 ∧ 15 < 16 ∧ 15 ≠ 0 ∧ ready.pos = .start ∧ ready.status.valid = true ∧
    ready.cfg.val.formats[ready.fmtIdx.toNat]? = some ⟨0xA100, 0⟩ ∧ 0xA000 = 0 + ready.cfg.val.palLa ∧
    ready.Readable 0xA000 256 :=
  ⟨by decide, by decide, by decide, rfl, rfl, by decide, by decide, ready_readable _ _ (by decide)⟩

/-- `ready` with a sink's answers. -/
def answered (answers : List SinkAnswer) : State := { ready with sink := answers }

/-- For every answers the sink will give, so also for `List.replicate 1024 .ok ++ answers`. -/
theorem witness_MtbuildCompletes (answers : List SinkAnswer) : (answered answers).pos = .start ∧
    (answered answers).status.valid = true ∧ (answered answers).Readable (answered answers).paletteOffset 256 ∧
    (answered answers).MetatileReadable 255 ∧ (answered answers).sink = answers :=
  ⟨rfl, rfl, ready_palette, ready_metatile 255 (by decide), rfl⟩
/-- Of RasterCompletes and RasterFillsTheFrame: for `List.replicate 262144 .ok ++ answers` too. -/
theorem witness_RasterCompletes (answers : List SinkAnswer) : (answered answers).pos = .start ∧
    (answered answers).status.valid = true ∧ (answered answers).Readable (answered answers).paletteOffset 256 ∧
    (∀ mt, mt < 256 → (answered answers).MetatileReadable mt) ∧ (answered answers).sink = answers :=
  ⟨rfl, rfl, ready_palette, fun mt h => ready_metatile mt h, rfl⟩
theorem witness_MemoryCommandsNeedValid : State.reset.pos = .start ∧ State.reset.status.valid = false ∧
    State.reset.status.errCode = 0#4 := ⟨rfl, rfl, rfl⟩
/-- One byte too few for each of the four reads. -/
theorem witness_FirstReadOutOfRangeAborts :
    ((readyOf .tcfg 0x1FFF).pos = .start ∧ (readyOf .tcfg 0x1FFF).status.valid = true) ∧
    (∃ off, off = (readyOf .tcfg 0x1FFF).tilemapOffset 255 15 ∧ (readyOf .tcfg 0x1FFF).snapSize.toNat < off + 2) ∧
    (∃ off, off = (readyOf .tcfg 0x9FFF).recordOffset 1023 ∧ (readyOf .tcfg 0x9FFF).snapSize.toNat < off + 32) ∧
    ∃ off, off = (readyOf .tcfg 0xA0FF).paletteOffset ∧ (readyOf .tcfg 0xA0FF).snapSize.toNat < off + 256 :=
  ⟨⟨rfl, rfl⟩, ⟨_, rfl, by decide⟩, ⟨_, rfl, by decide⟩, ⟨_, rfl, by decide⟩⟩
theorem witness_MtbuildAbortsInItsReadPhase :
    ((readyOf lateTilemap 0xA0FE).pos = .start ∧ (readyOf lateTilemap 0xA0FE).status.valid = true ∧
      (readyOf lateTilemap 0xA0FE).Readable (readyOf lateTilemap 0xA0FE).paletteOffset 256 ∧
      (readyOf lateTilemap 0xA0FE).ReadFailsAt 255 15 0xA0FE) ∧
    (readyOf noRecords 0x2100).pos = .start ∧ (readyOf noRecords 0x2100).status.valid = true ∧
      (readyOf noRecords 0x2100).Readable (readyOf noRecords 0x2100).paletteOffset 256 ∧
      ∃ off, (readyOf noRecords 0x2100).ReadFailsAt 0 0 off :=
  ⟨⟨rfl, rfl, readyOf_readable _ _ _ _ rfl (by decide) (by decide), lateTilemap_fails.1⟩,
    rfl, rfl, readyOf_readable _ _ _ _ rfl (by decide) (by decide), noRecords_fails⟩
/-- For every answers, so also for `List.replicate (1024 * 255) .ok ++ answers`. -/
theorem witness_RasterAbortsAtTheFirstFailingRead (answers : List SinkAnswer) :
    let s := { readyOf lateTilemap 0xA0FE with sink := answers }
    s.pos = .start ∧ s.status.valid = true ∧ s.Readable s.paletteOffset 256 ∧
      (∀ mt, mt < 255 → s.MetatileReadable mt) ∧ s.ReadFailsAt 255 15 0xA0FE ∧ s.sink = answers :=
  ⟨rfl, rfl, readyOf_readable lateTilemap 0xA0FE 0 256 rfl (by decide) (by decide),
    fun mt h j hj => lateTilemap_fails.2 mt j (by omega), lateTilemap_fails.1, rfl⟩
/-- With `witness_MtbuildCompletes` and `witness_RasterCompletes` at the answers `List.replicate n .ok ++ .err :: rest`: the
first and the last pixel. -/
theorem witness_MtbuildAbortsAtAFailedWrite : 255 < 256 ∧ 0 < 1024 ∧ 1023 < 1024 := by decide
theorem witness_RasterAbortsAtAFailedWrite : 0 < 262144 ∧ 262143 < 262144 ∧ ∀ mt, mt ≤ 262143 / 1024 → mt < 256 :=
  ⟨by decide, by decide, fun mt h => by omega⟩
theorem witness_SilentSinkHangsMtbuild : ∀ n ∈ [0, 1023],
    let s := { flying (.mtbuild 255) with sink := List.replicate n .ok }
    s.latch = some 0x400000FF#32 ∧ decode 0x400000FF#32 = .ok (.mtbuild 255) ∧ s.sched = [] ∧ s.pos = .start ∧
      s.status.valid = true ∧ s.Readable s.paletteOffset 256 ∧ s.MetatileReadable 255 :=
  fun _ _ => ⟨rfl, by decide, rfl, rfl, rfl, ready_palette, ready_metatile 255 (by decide)⟩
theorem witness_UnwrittenReadFaultsWhereTheBuildSaysSo :
    let s := { ready with cfg := faultBuild }
    s.pos = .start ∧ s.status.valid = true ∧ s.tilemapOffset 255 15 + 2 ≤ s.snapSize.toNat ∧
      s.recordOffset 1023 + 32 ≤ s.snapSize.toNat ∧ s.paletteOffset + 256 ≤ s.snapSize.toNat ∧
      s.cfg.val.unwrittenSnapRead = .fault ∧ ∀ a, s.snap.get? a = none :=
  ⟨rfl, rfl, by decide, by decide, by decide, rfl, fun _ => rfl⟩

/-- On a build that takes `fault`: the palette, some tilemap bytes and record 0 are written. -/
def partly (tilemap : List Byte) (answers : List SinkAnswer) : State :=
  { ready with
    cfg := faultBuild, sink := answers
    snap := cellsAt 0 tilemap ++ cellsAt 0x2000 (List.replicate 32 0#8) ++ cellsAt 0xA000 (List.replicate 256 0#8) }

theorem partly_palette_written : ∀ tilemap ∈ [List.replicate 33 0#8, [1#8, 0#8]], ∀ k, k < 256 →
    ((partly tilemap []).snap.get? ((partly tilemap []).paletteOffset + k)).isSome = true := by decide +kernel

theorem readable_palette_sink (s : State) (answers : List SinkAnswer) (h : s.Readable s.paletteOffset 256) :
    ({ s with sink := answers } : State).Readable ({ s with sink := answers } : State).paletteOffset 256 := h

theorem partly_palette_inRange : ∀ tilemap ∈ [List.replicate 33 0#8, [1#8, 0#8]],
    (partly tilemap []).paletteOffset + 256 ≤ (partly tilemap []).snapSize.toNat := by decide +kernel

theorem partly_palette (answers : List SinkAnswer) (tilemap : List Byte)
    (h : tilemap ∈ [List.replicate 33 0#8, [1#8, 0#8]]) :
    (partly tilemap answers).Readable (partly tilemap answers).paletteOffset 256 :=
  readable_palette_sink (partly tilemap []) answers
    ⟨partly_palette_inRange tilemap h, .inr (partly_palette_written tilemap h)⟩

/-- Metatile 0 is readable; of metatile 1's first tilemap word the second byte is unwritten. -/
theorem partly_word (answers : List SinkAnswer) : (∀ mt, mt < 1 → (partly (List.replicate 33 0#8) answers).MetatileReadable mt) ∧
    (partly (List.replicate 33 0#8) answers).ReadStopsAt 1 0 0x20 := by
  refine ⟨fun mt hmt j hj => ?_, by decide, fun j hj => absurd hj (Nat.not_lt_zero j),
    .inl ⟨rfl, (by decide : 0x20 + 2 ≤ 0xA100), 1, by decide,
      (by decide +kernel : (partly (List.replicate 33 0#8) []).snap.get? 0x21 = none)⟩⟩
  obtain rfl : mt = 0 := by omega
  have h : ∀ j, j < 16 →
      ((partly (List.replicate 33 0#8) []).tilemapOffset 0 j + 2 ≤ 0xA100 ∧ ∀ k, k < 2 →
        ((partly (List.replicate 33 0#8) []).snap.get? ((partly (List.replicate 33 0#8) []).tilemapOffset 0 j + k)).isSome) ∧
      (partly (List.replicate 33 0#8) []).recordOffset ((partly (List.replicate 33 0#8) []).tilemapWord 0 j &&& 0x03FF) =
        0x2000 ∧ ∀ k, k < 32 → ((partly (List.replicate 33 0#8) []).snap.get? (0x2000 + k)).isSome := by decide +kernel
  obtain ⟨⟨hw, hwk⟩, hr, hrk⟩ := h j hj
  exact ⟨⟨hw, .inr hwk⟩, hr.symm ▸ ⟨(by decide : 0x2000 + 32 ≤ 0xA100), .inr hrk⟩⟩

/-- Metatile 0's first tilemap word is written and names record 1. -/
theorem partly_record_word (answers : List SinkAnswer) :
    (partly [1#8, 0#8] answers).Readable ((partly [1#8, 0#8] answers).tilemapOffset 0 0) 2 := by
  have h : ∀ k, k < 2 →
      ((partly [1#8, 0#8] []).snap.get? ((partly [1#8, 0#8] []).tilemapOffset 0 0 + k)).isSome = true := by decide +kernel
  exact ⟨(by decide : 0 + 2 ≤ 0xA100), .inr h⟩

theorem partly_record_offset (answers : List SinkAnswer) :
    0x2020 = (partly [1#8, 0#8] answers).recordOffset ((partly [1#8, 0#8] answers).tilemapWord 0 0 &&& 0x03FF) := by
  rw [show (partly [1#8, 0#8] answers).tilemapWord 0 0 = (partly [1#8, 0#8] []).tilemapWord 0 0 from rfl,
    show (partly [1#8, 0#8] answers).recordOffset = (partly [1#8, 0#8] []).recordOffset from rfl]
  decide +kernel

theorem partly_record_unwritten : (partly [1#8, 0#8] []).snap.get? (0x2020 + 31) = none := by decide +kernel

theorem partly_record (answers : List SinkAnswer) : (partly [1#8, 0#8] answers).ReadStopsAt 0 0 0x2020 :=
  ⟨by decide, fun j hj => absurd hj (Nat.not_lt_zero j),
    .inr ⟨partly_record_word answers, partly_record_offset answers, (by decide : 0x2020 + 32 ≤ 0xA100), 31, by decide,
      partly_record_unwritten⟩⟩

/-- Of the clauses of MTBUILD and RASTER: for every answers, so also for `List.replicate (1024 * i) .ok ++ answers`. -/
theorem witness_UnwrittenReadFaults_later (answers : List SinkAnswer) :
    (∀ tilemap, (partly tilemap answers).pos = .start ∧ (partly tilemap answers).status.valid = true ∧
      (partly tilemap answers).cfg.val.unwrittenSnapRead = .fault ∧ (partly tilemap answers).sink = answers) ∧
    (partly (List.replicate 33 0#8) answers).Readable (partly (List.replicate 33 0#8) answers).paletteOffset 256 ∧
    (partly [1#8, 0#8] answers).Readable (partly [1#8, 0#8] answers).paletteOffset 256 ∧
    (∀ mt, mt < 1 → (partly (List.replicate 33 0#8) answers).MetatileReadable mt) ∧
    (partly (List.replicate 33 0#8) answers).ReadStopsAt 1 0 0x20 ∧ (partly [1#8, 0#8] answers).ReadStopsAt 0 0 0x2020 :=
  ⟨fun _ => ⟨rfl, rfl, rfl, rfl⟩, partly_palette answers _ (by simp), partly_palette answers _ (by simp),
    (partly_word answers).1, (partly_word answers).2, partly_record answers⟩
theorem witness_ControlCommandsFrame : ∀ i ∈ [Instr.nop, .validate, .clrerr], ∃ t, exec i (flying i) = .next t := by
  intro i hi
  simp only [List.mem_cons, List.not_mem_nil, or_false] at hi
  rcases hi with rfl | rfl | rfl <;> exact ⟨_, rfl⟩
/-- Of InspectionCommandsFrame and CommandsWithoutWritesEnd: with success, and with an abort. -/
theorem witness_InspectionCommandsFrame :
    (∀ i ∈ [Instr.tmdec 65535, .tmfetch 255 15, .pixidx 1023 7 7, .palres 7 15, .palres 0 0],
      i.frame = false ∧ i ≠ .nop ∧ i ≠ .validate ∧ i ≠ .clrerr ∧ (flying i).status.err = false ∧
      ∃ t, exec i (flying i) = .next t ∧ t.status.err = false) ∧
    ∃ t, exec (.pixidx 1023 7 7) (readyOf .tcfg 0x9FFF) = .next t ∧ t.status.err = true := by
  refine ⟨fun i hi => ?_, next_of_after (f := fun t => t.status.err) (by decide)⟩
  simp only [List.mem_cons, List.not_mem_nil, or_false] at hi
  rcases hi with rfl | rfl | rfl | rfl | rfl <;>
    exact ⟨rfl, by simp, by simp, by simp, rfl, next_of_after (f := fun t => t.status.err) (by decide)⟩
/-- Of FrameCommandsFrame, and of FrameCommandsEndWhileTheSinkAnswers in the clause of MTBUILD. -/
theorem witness_FrameCommandsFrame : (Instr.mtbuild 17).frame = true ∧ Instr.raster.frame = true ∧
    (issued (.mtbuild 17) { metatile17 with sink := .err :: List.replicate 1023 .ok }).pos = .start ∧
    ∃ t, exec (.mtbuild 17) (issued (.mtbuild 17) { metatile17 with sink := .err :: List.replicate 1023 .ok }) = .next t ∧
      t.status.err = true :=
  ⟨rfl, rfl, rfl, next_of_after (f := fun t => t.status.err) (by decide +kernel)⟩
/-- The last FrameWrite of metatile 255, for both commands. -/
theorem witness_FrameCommandsFrame_positions : ∀ i ∈ [Instr.mtbuild 255, .raster],
    Pos.Fits i (.writing (List.replicate 256 0#8) 255 (List.replicate 16 ⟨0, List.replicate 32 0#8⟩) 1023) ∧
      Pos.Fits i .start := by
  have hc : ∀ c ∈ List.replicate 16 (⟨0, List.replicate 32 0#8⟩ : Cell), c.Legal := fun c h =>
    (List.mem_replicate.1 h).2 ▸ ⟨by decide, List.length_replicate⟩
  intro i hi
  simp only [List.mem_cons, List.not_mem_nil, or_false] at hi
  rcases hi with rfl | rfl <;>
    exact ⟨⟨by simp [Instr.emits], List.length_replicate, List.length_replicate, hc, by decide⟩, trivial⟩
theorem witness_FrameCommandsEndWhileTheSinkAnswers :
    1024 ≤ (SinkAnswer.err :: List.replicate 1023 SinkAnswer.ok).length ∧
    (∃ t, exec .raster { loaded 2 0x9000 [] with sink := List.replicate 262144 .ok } = .next t) ∧
    262144 ≤ (List.replicate 262144 SinkAnswer.ok).length := by
  refine ⟨by rw [List.length_cons, List.length_replicate], ?_, by rw [List.length_replicate]⟩
  exact ⟨_, exec_read_outOfRange .raster _ _ 0xA000 256 (fun pal => .reading pal 0 []) rfl (by decide) rfl⟩
/-- The build of `State.reset` takes `value`, whatever the free parameters are. -/
theorem witness_ValueBuildsNeverStop : State.reset.cfg.val.unwrittenSnapRead = .value := by
  rw [State.reset, State.powerOn, Config.build, Build.ofParams?]
  split <;> rfl
theorem witness_OnlyRasterSetsFrameValid : ∃ s t : State, step s = .next t ∧ s.status.frameValid = false ∧
    t.status.frameValid = true :=
  ⟨{ flying .raster with pos := .emitted, sched := [.core] }, _, rfl, rfl, rfl⟩
/-- A byte at SNAP_SIZE differs; the command succeeds, or on a build that takes `fault` stops. -/
theorem witness_BytesBeyondSnapSizeAreInvisible :
    (∀ a, a < (flying (.tmfetch 255 15)).snapSize.toNat →
      Memory.get? [(0xA100, 7#8)] a = (flying (.tmfetch 255 15)).snap.get? a) := by
  intro a ha
  have : a ≠ 0xA100 := Nat.ne_of_lt ha
  simp [Memory.get?, this, flying, issued, ready, loaded, State.accept]
theorem witness_ByteSwapNormalization : ([1#8, 2#8, 3#8, 4#8] : List Byte).length % 2 = 0 ∧ ([] : List Byte).length % 2 = 0 := by
  decide
theorem witness_EntryFieldsPartitionTheWord : 0xFFFF < 2 ^ 16 := by decide
theorem witness_PlaneDecoderProperties : 7 < 8 ∧ (List.replicate 32 0xFF#8).length = 32 ∧
    ∀ k ∈ [14, 15, 30, 31], byteAt (List.replicate 32 0xFF#8) k / 2 ^ (7 - 7) % 2 = 1 := by decide
theorem witness_ChannelScaling : 30 < 31 ∧ 31 < 32 := by decide
theorem witness_SubTilePlacementIsABijection : 31 < 32 ∧ 15 < 16 ∧ 7 < 8 := by decide
theorem witness_RasterOrderCoversTheFrame : 262143 < 262144 ∧ 255 < 256 ∧ 31 < 32 := by decide
theorem witness_WaitPollsUntilBusyIsZero :
    (∃ s : State, s.status.busy = false ∧ s.sched = [.wait []]) ∧
    (∃ s : State, s.status.busy = true ∧ s.sched = [.wait [0]]) ∧
    ∃ s t : State, s.status.busy = true ∧ s.latch = some 0x00000000#32 ∧ decode 0x00000000#32 = .ok .nop ∧
      s.sched = [.wait []] ∧
      exec .nop { s with sched := [.wait []], replies := .word s.status.toWord :: s.replies } = .next t :=
  ⟨⟨{ ready with sched := [.wait []] }, rfl, rfl⟩, ⟨{ flying .raster with sched := [.wait [0]] }, rfl, rfl⟩,
    { flying .nop with sched := [.wait []] }, _, rfl, rfl, by decide, rfl, exec_last .nop _ _ rfl⟩
theorem witness_SilentSinkHangsRaster : ∀ k ∈ [0, 262143],
    let s := { flying .raster with sink := List.replicate k .ok }
    s.latch = some 0x50000000#32 ∧ decode 0x50000000#32 = .ok .raster ∧ s.sched = [] ∧ s.pos = .start ∧
      s.status.valid = true ∧ k < 262144 ∧ s.Readable s.paletteOffset 256 ∧
      ∀ mt, mt ≤ k / 1024 → s.MetatileReadable mt := by
  intro k hk
  have hk : k < 262144 := by
    simp only [List.mem_cons, List.not_mem_nil, or_false] at hk
    omega
  exact ⟨rfl, by decide, rfl, rfl, rfl, hk, ready_palette, fun mt h => ready_metatile mt (by omega)⟩

end Sys2Proof.Tests
end

section
/-! Ranges of what the commands write to the result registers, and of a format's number (10_state.md R31 to R34). -/
namespace Sys2Proof.Machine

theorem ofNat_toNat_lt (n k : Nat) (h : n < 2 ^ k) : (BitVec.ofNat 32 n).toNat < 2 ^ k :=
  lt_of_le_of_lt (Nat.mod_le n (2 ^ 32)) h

theorem decodeEntry_pal_lt (w : Nat) : (decodeEntry w).pal < 8 := by
  have hmask : w &&& 0x1C00 ≤ 0x1C00 := Nat.and_le_right
  show (w &&& 0x1C00) >>> 10 < 8
  rw [Nat.shiftRight_eq_div_pow]
  omega

/-- R32: an entry fills bits 15:0 of RES_ENTRY. -/
theorem packEntry_lt (e : Entry) (htile : e.tile < 1024) (hpal : e.pal < 8) : packEntry e < 2 ^ 16 := by
  have hprio := Bool.toNat_le e.prio
  have hhflip := Bool.toNat_le e.hflip
  have hvflip := Bool.toNat_le e.vflip
  unfold packEntry
  simp only [Nat.shiftLeft_eq]
  omega

theorem pixelIndex_lt (swapped : Bool) (s : List Byte) (r c : Nat) : pixelIndex swapped s r c < 2 ^ 4 := by
  have h0 := planeBit_lt swapped s 0 r c
  have h1 := planeBit_lt swapped s 1 r c
  have h2 := planeBit_lt swapped s 2 r c
  have h3 := planeBit_lt swapped s 3 r c
  rw [pixelIndex]
  omega

theorem packRgb_lt (c : RGB) : packRgb c < 2 ^ 24 := by
  have hr := c.r.isLt
  have hg := c.g.isLt
  have hb := c.b.isLt
  unfold packRgb
  simp only [Nat.shiftLeft_eq]
  omega

/-- R8: a build has at most 16 formats. -/
theorem Build.formats_length_le (c : Build) : c.val.formats.length ≤ 16 := by
  have h := c.property
  simp only [Params.wf, Bool.and_eq_true, decide_eq_true_eq] at h
  obtain ⟨⟨⟨⟨⟨⟨-, hlen⟩, -⟩, -⟩, -⟩, -⟩, -⟩ := h
  exact hlen

/-- R141: the format VALIDATE selects has the size it was asked for. -/
theorem matchFormat_some (c : Params) (size k : Nat) (h : matchFormat c size = some k) :
    k < c.formats.length ∧ ∃ f, c.formats[k]? = some f ∧ f.size = size := by
  obtain ⟨hk, hsize, -⟩ := List.findIdx?_eq_some_iff_getElem.1 h
  exact ⟨hk, c.formats[k], List.getElem?_eq_getElem hk, by simpa using hsize⟩

end Sys2Proof.Machine
end

section
/-! The legal combinations of STATUS (10_state.md R26) are kept by every rule that writes a flag. -/
namespace Sys2Proof.Machine

theorem Status.Legal.reset : Status.reset.Legal := ⟨by decide, by decide, by decide, by decide⟩

theorem Status.Legal.accept (f : Status) (frameCmd : Bool) : (f.accept frameCmd).Legal where
  busy _ := ⟨rfl, rfl⟩
  done h := by cases h
  err h := by cases h
  noErr _ := rfl

theorem CmdError.code_mem (e : CmdError) : e.code ∈ [1#4, 2#4, 3#4, 4#4, 5#4] := by
  cases e <;> decide

/-- R304: a command in flight has no error to clear. -/
theorem Status.Legal.complete {f : Status} (h : f.Legal) (hb : f.busy = true) : f.complete.Legal where
  busy h' := by cases h'
  done _ := ⟨(h.busy hb).2, h.noErr (h.busy hb).2⟩
  err := h.err
  noErr := h.noErr

/-- R305: DONE has been 0 since acceptance. -/
theorem Status.Legal.raise {f : Status} (h : f.Legal) (hb : f.busy = true) (e : CmdError) : (f.raise e).Legal where
  busy h' := by cases h'
  done h' := absurd (h'.symm.trans (h.busy hb).1) (by decide)
  err _ := e.code_mem
  noErr h' := by cases h'

/-- VALID, FRAME_VALID, CMD_OVF and WLOCK are free of the others. -/
theorem Status.Legal.congr {f g : Status} (h : f.Legal) (hbusy : g.busy = f.busy) (hdone : g.done = f.done)
    (herr : g.err = f.err) (hcode : g.errCode = f.errCode) : g.Legal := by
  constructor
  · rw [hbusy, hdone, herr]; exact h.busy
  · rw [hdone, herr, hcode]; exact h.done
  · rw [herr, hcode]; exact h.err
  · rw [herr, hcode]; exact h.noErr

end Sys2Proof.Machine
end

section
/-! The invariant of the block in two parts: what it says of the registers and of SNAP, and what it says of the command in
flight. -/
namespace Sys2Proof.Machine

/-- The part of `State.Inv` that speaks of neither the latch nor the position. -/
structure State.RegInv (s : State) : Prop where
  status : s.status.Legal
  valid : s.status.valid = true → ∃ f, s.cfg.val.formats[s.fmtIdx.toNat]? = some f ∧ f.size = s.snapSize.toNat
  reserved : s.fmtIdx.toNat < 2 ^ 4 ∧ s.resEntry.toNat < 2 ^ 16 ∧ s.resIndex.toNat < 2 ^ 4 ∧ s.resRgb.toNat < 2 ^ 24
  snapWf : s.snap.wf = true
  snapBound : ∀ c ∈ s.snap, c.1 < s.cfg.val.snapMax

variable {s t : State}

theorem State.Inv.regInv (h : s.Inv) : s.RegInv := ⟨h.status, h.valid, h.reserved, h.snapWf, h.snapBound⟩

theorem State.RegInv.inv_of_idle (h : s.RegInv) (hl : s.latch = none) (hb : s.status.busy = false) (hp : s.pos = .start) :
    s.Inv :=
  ⟨h.status, fun _ => ⟨hb, hp⟩, fun w hw => by simp [hl] at hw, h.valid, h.reserved, h.snapWf, h.snapBound⟩

theorem State.RegInv.inv_of_inFlight (h : s.RegInv) {w : Word} (hl : s.latch = some w) (hf : s.InFlightOk w) : s.Inv :=
  ⟨h.status, fun hn => by simp [hl] at hn, fun w' hw => Option.some.inj (hl.symm.trans hw) ▸ hf,
    h.valid, h.reserved, h.snapWf, h.snapBound⟩

/-- R20 (c): while BUSY = 0 no command is in flight. -/
theorem State.Inv.latch_of_idle (h : s.Inv) (hb : s.status.busy = false) : s.latch = none := by
  cases hl : s.latch with
  | none => rfl
  | some w =>
    obtain ⟨hbusy, -⟩ := h.inFlight w hl
    simp [hb] at hbusy

/-- The schedule and the replies are the host's side: the invariant does not speak of them. -/
theorem State.Inv.hostSide (h : s.Inv) (sched : List Move) (replies : List Reply) :
    ({ s with sched := sched, replies := replies } : State).Inv :=
  ⟨h.status, h.idle, h.inFlight, h.valid, h.reserved, h.snapWf, h.snapBound⟩

/-- CMD_OVF and WLOCK are free of all else: setting one keeps the invariant. -/
theorem State.Inv.sticky (h : s.Inv) (f : Status) (hf : f = { s.status with cmdOvf := f.cmdOvf, wlock := f.wlock }) :
    ({ s with status := f } : State).Inv := by
  rw [hf]
  exact ⟨h.status.congr rfl rfl rfl rfl, h.idle, h.inFlight, h.valid, h.reserved, h.snapWf, h.snapBound⟩

/-- The registers at their reset values over any legal memory (R42). -/
theorem State.RegInv.of_reset (hstatus : s.status = Status.reset) (hfmt : s.fmtIdx = 0#32) (hentry : s.resEntry = 0#32)
    (hindex : s.resIndex = 0#32) (hrgb : s.resRgb = 0#32) (hwf : s.snap.wf = true)
    (hbound : ∀ c ∈ s.snap, c.1 < s.cfg.val.snapMax) : s.RegInv where
  status := hstatus ▸ .reset
  valid h := by simp [hstatus] at h
  reserved := by simp [hfmt, hentry, hindex, hrgb]
  snapWf := hwf
  snapBound := hbound

/-! ### Register writes of a command's last step -/

theorem State.RegInv.complete (h : s.RegInv) (hb : s.status.busy = true) : s.complete.RegInv :=
  ⟨h.status.complete hb, h.valid, h.reserved, h.snapWf, h.snapBound⟩

theorem State.RegInv.raise (h : s.RegInv) (hb : s.status.busy = true) (e : CmdError) (info : Nat) :
    (s.raise e info).RegInv :=
  ⟨h.status.raise hb e, h.valid, h.reserved, h.snapWf, h.snapBound⟩

/-- New results in range, the other registers and SNAP as they were. -/
theorem State.RegInv.withResults (h : s.RegInv) (hcfg : t.cfg = s.cfg) (hstatus : t.status = s.status)
    (hsize : t.snapSize = s.snapSize) (hfmt : t.fmtIdx = s.fmtIdx) (hsnap : t.snap = s.snap)
    (hentry : t.resEntry.toNat < 2 ^ 16) (hindex : t.resIndex.toNat < 2 ^ 4) (hrgb : t.resRgb.toNat < 2 ^ 24) :
    t.RegInv where
  status := by rw [hstatus]; exact h.status
  valid := by rw [hstatus, hcfg, hfmt, hsize]; exact h.valid
  reserved := by rw [hfmt]; exact ⟨h.reserved.1, hentry, hindex, hrgb⟩
  snapWf := by rw [hsnap]; exact h.snapWf
  snapBound := by rw [hsnap, hcfg]; exact h.snapBound

theorem State.RegInv.withEntry (h : s.RegInv) (w : Nat) : (s.withEntry w).RegInv := by
  obtain ⟨-, -, hindex, hrgb⟩ := h.reserved
  refine h.withResults (State.withEntry_cfg w s) (State.withEntry_status w s) (State.withEntry_snapSize w s)
    (State.withEntry_fmtIdx w s) (State.withEntry_snap w s) ?_ ?_ ?_
  · rw [State.withEntry_resEntry]; exact ofNat_toNat_lt _ 16 (packEntry_lt _ (decodeEntry_tile_lt w) (decodeEntry_pal_lt w))
  · rw [State.withEntry_resIndex]; exact hindex
  · rw [State.withEntry_resRgb]; exact hrgb

theorem State.RegInv.withIndex (h : s.RegInv) (n : Nat) (hn : n < 2 ^ 4) :
    ({ s with resIndex := BitVec.ofNat 32 n } : State).RegInv := by
  obtain ⟨-, hentry, -, hrgb⟩ := h.reserved
  exact h.withResults rfl rfl rfl rfl rfl hentry (ofNat_toNat_lt n 4 hn) hrgb

theorem State.RegInv.withRgb (h : s.RegInv) (c : RGB) : (s.withRgb c).RegInv := by
  obtain ⟨-, hentry, hindex, -⟩ := h.reserved
  refine h.withResults (State.withRgb_cfg c s) (State.withRgb_status c s) (State.withRgb_snapSize c s)
    (State.withRgb_fmtIdx c s) (State.withRgb_snap c s) ?_ ?_ ?_
  · rw [State.withRgb_resEntry]; exact hentry
  · rw [State.withRgb_resIndex]; exact hindex
  · rw [State.withRgb_resRgb]; exact ofNat_toNat_lt _ 24 (packRgb_lt c)

/-- A change of STATUS to a legal combination in which VALID is not newly set. -/
theorem State.RegInv.withStatus (h : s.RegInv) (f : Status) (hlegal : f.Legal)
    (hvalid : f.valid = true → s.status.valid = true) : ({ s with status := f } : State).RegInv :=
  ⟨hlegal, fun hv => h.valid (hvalid hv), h.reserved, h.snapWf, h.snapBound⟩

/-- R142: the format VALIDATE selects is the one of SNAP_SIZE. -/
theorem State.RegInv.withFormat (h : s.RegInv) (k : Nat) (hk : matchFormat s.cfg.val s.snapSize.toNat = some k) :
    ({ s with fmtIdx := BitVec.ofNat 32 k, status := s.status.setValid true } : State).RegInv := by
  obtain ⟨hlen, hformat⟩ := matchFormat_some _ _ k hk
  have hk16 : k < 2 ^ 4 := lt_of_lt_of_le hlen (Build.formats_length_le s.cfg)
  have hnum : (BitVec.ofNat 32 k).toNat = k := by
    rw [BitVec.toNat_ofNat]; omega
  obtain ⟨-, hres⟩ := h.reserved
  exact ⟨h.status.congr rfl rfl rfl rfl, fun _ => by simpa only [hnum] using hformat, ⟨hnum.symm ▸ hk16, hres⟩,
    h.snapWf, h.snapBound⟩

/-! ### The last step of a command -/

theorem singleRead_last_regInv (off n : Nat) (result : List Byte → State) (h : s.RegInv) (hb : s.status.busy = true)
    (hresult : ∀ bytes, (result bytes).RegInv ∧ (result bytes).status = s.status)
    (hl : singleRead off n result s = .last t) : t.RegInv := by
  rw [singleRead] at hl
  split at hl
  · cases hl
    obtain ⟨hreg, hstatus⟩ := hresult ‹List Byte›
    exact hreg.complete (hstatus ▸ hb)
  · cases hl; exact h.raise hb _ _
  · split at hl
    · cases hl
    · cases hl; exact h.raise hb _ _

theorem frameCommand_last_regInv (first : Nat) (after : List Byte → Nat → Pos) (finish : State → State) (h : s.RegInv)
    (hb : s.status.busy = true) (hfinish : (finish s).RegInv ∧ (finish s).status.busy = true)
    (hl : frameCommand first after finish s = .last t) : t.RegInv := by
  rw [frameCommand] at hl
  split at hl
  · cases hl
  · cases hl
  · cases hl
  · cases hl; exact hfinish.1.complete hfinish.2
  · cases hl; exact h.raise hb _ _
  · split at hl
    · cases hl
    · cases hl; exact h.raise hb _ _

theorem action_last_regInv (i : Instr) (h : s.RegInv) (hb : s.status.busy = true) (hl : action i s = .last t) :
    t.RegInv := by
  cases i with
  | nop => cases hl; exact h.complete hb
  | validate =>
    rw [action, actValidate] at hl
    cases hl
    split
    · exact (h.withStatus (s.status.setValid false) (h.status.congr rfl rfl rfl rfl) (nomatch ·)).raise hb _ _
    · exact (h.withFormat _ ‹_›).complete hb
  | clrerr =>
    cases hl
    exact (h.withStatus s.status.clearSticky (h.status.congr rfl rfl rfl rfl) id).complete hb
  | tmdec word => cases hl; exact (h.withEntry word).complete (by rw [State.withEntry_status]; exact hb)
  | tmfetch mt ent =>
    rw [action, actTmfetch] at hl
    exact singleRead_last_regInv _ _ _ h hb (fun _ => ⟨h.withEntry _, State.withEntry_status _ s⟩) hl
  | pixidx tile row col =>
    rw [action, actPixidx] at hl
    exact singleRead_last_regInv _ _ _ h hb (fun _ => ⟨h.withIndex _ (pixelIndex_lt _ _ _ _), rfl⟩) hl
  | palres sel idx =>
    rw [action, actPalres] at hl
    split at hl
    · cases hl
      split
      · exact (h.withRgb sentinel).complete (by rw [State.withRgb_status]; exact hb)
      · exact h.raise hb _ _
    · exact singleRead_last_regInv _ _ _ h hb (fun _ => ⟨h.withRgb _, State.withRgb_status _ s⟩) hl
  | mtbuild mt =>
    rw [action, actMtbuild] at hl
    exact frameCommand_last_regInv _ _ _ h hb ⟨h, hb⟩ hl
  | raster =>
    rw [action, actRaster] at hl
    exact frameCommand_last_regInv _ _ _ h hb
      ⟨h.withStatus s.status.setFrameValid (h.status.congr rfl rfl rfl rfl) id, hb⟩ hl

/-- The last step of a command leaves the block idle and legal. -/
theorem action_last_inv (i : Instr) (h : s.RegInv) (hb : s.status.busy = true) (hl : action i s = .last t) : t.Inv := by
  obtain ⟨hlatch, hpos, hbusy, -⟩ := action_last i s t hl
  exact (action_last_regInv i h hb hl).inv_of_idle hlatch hbusy hpos

end Sys2Proof.Machine
end

section
/-! The positions of a command's reference sequence (10_state.md R38): each action of the command leads to the next one. -/
namespace Sys2Proof.Machine

/-- Every position the action can lead to, while the command goes on, is one of the command's. -/
def Action.Fits (i : Instr) : Action → Prop
  | .last _ => True
  | .read _ n next => (i.readBytes.isSome = true ∨ i.frame = true) ∧ ∀ bytes, bytes.length = n → (next bytes).Fits i
  | .write _ _ next => i.frame = true ∧ next.Fits i

theorem singleRead_fits (i : Instr) (off n : Nat) (result : List Byte → State) (s : State) (hi : i.readBytes = some n) :
    (singleRead off n result s).Fits i := by
  rw [singleRead]
  split
  · trivial
  · trivial
  · split
    · exact ⟨.inl (by simp [hi]), fun bytes hlen => by simp [Pos.Fits, hi, hlen]⟩
    · trivial

theorem Instr.frame_of_emits {i : Instr} {mt : Nat} (h : i.emits mt) : i.frame = true := by
  cases i with
  | mtbuild _ | raster => rfl
  | nop | validate | clrerr | tmdec _ | tmfetch _ _ | pixidx _ _ _ | palres _ _ => exact absurd h id

/-- A record read adds a legal cell; after the sixteenth the FrameWrites come next (R232). -/
theorem afterRecord_fits (i : Instr) (pal : List Byte) (mt : Nat) (cells : List Cell) (c : Cell) (hi : i.emits mt)
    (hpal : pal.length = 256) (hlen : cells.length < 16) (hcells : ∀ c ∈ cells, c.Legal) (hc : c.Legal) :
    (afterRecord pal mt (cells ++ [c])).Fits i := by
  have hall : ∀ d ∈ cells ++ [c], d.Legal := by
    simpa [or_imp, forall_and] using ⟨hcells, hc⟩
  rw [afterRecord]
  split
  · exact ⟨hi, hpal, ‹_›, hall⟩
  · have hfull : (cells ++ [c]).length = 16 := by
      simp only [List.length_append, List.length_singleton] at *
      omega
    exact ⟨hi, hpal, hfull, hall, by decide⟩

theorem frameCommand_fits (i : Instr) (first : Nat) (after : List Byte → Nat → Pos) (finish : State → State) (s : State)
    (hfirst : i.emits first) (hafter : ∀ pal mt, pal.length = 256 → i.emits mt → (after pal mt).Fits i)
    (hs : s.pos.Fits i) : (frameCommand first after finish s).Fits i := by
  have hframe := Instr.frame_of_emits hfirst
  rw [frameCommand]
  split <;> rename_i hp
  · rw [hp] at hs
    obtain ⟨hmt, hpal, hlen, hcells⟩ := hs
    exact ⟨.inr hframe, fun bytes _ => ⟨hmt, hpal, hlen, hcells, fieldWord_lt bytes 0⟩⟩
  · rw [hp] at hs
    obtain ⟨hmt, hpal, hlen, hcells, hword⟩ := hs
    exact ⟨.inr hframe, fun bytes hbytes => afterRecord_fits i _ _ _ _ hmt hpal hlen hcells ⟨hword, hbytes⟩⟩
  · rw [hp] at hs
    obtain ⟨hmt, hpal, hlen, hcells, hn⟩ := hs
    refine ⟨hframe, ?_⟩
    rw [afterPixel]
    split
    · exact ⟨hmt, hpal, hlen, hcells, ‹_›⟩
    · exact hafter _ _ hpal hmt
  · trivial
  · trivial
  · split
    · exact ⟨.inr hframe, fun pal hpal => ⟨hfirst, hpal, by decide, by simp⟩⟩
    · trivial

theorem action_fits (i : Instr) (s : State) (hs : s.pos.Fits i) : (action i s).Fits i := by
  cases i with
  | nop | validate | clrerr | tmdec word => trivial
  | tmfetch mt ent => exact singleRead_fits _ _ _ _ s rfl
  | pixidx tile row col => exact singleRead_fits _ _ _ _ s rfl
  | palres sel idx =>
    rw [action, actPalres]
    split
    · trivial
    · exact singleRead_fits _ _ _ _ s (if_neg ‹_›)
  | mtbuild mt =>
    rw [action, actMtbuild]
    exact frameCommand_fits (.mtbuild mt) mt _ _ s rfl (fun _ _ _ _ => rfl) hs
  | raster =>
    rw [action, actRaster]
    refine frameCommand_fits .raster _ _ _ s (show 0 < 256 by decide) (fun pal mt hpal _ => ?_) hs
    rw [afterMetatile]
    split
    · exact ⟨show mt + 1 < 256 by omega, hpal, by decide, by simp⟩
    · rfl

theorem singleRead_valid (off n : Nat) (result : List Byte → State) (s : State)
    (ha : ∀ t, singleRead off n result s ≠ .last t) : s.status.valid = true := by
  rw [singleRead] at ha
  split at ha
  · exact absurd rfl (ha _)
  · exact absurd rfl (ha _)
  · split at ha
    · assumption
    · exact absurd rfl (ha _)

theorem frameCommand_valid (first : Nat) (after : List Byte → Nat → Pos) (finish : State → State) (s : State)
    (hs : s.pos ≠ .start → s.status.valid = true) (ha : ∀ t, frameCommand first after finish s ≠ .last t) :
    s.status.valid = true := by
  rw [frameCommand] at ha
  split at ha <;> rename_i hp
  · exact hs (by simp [hp])
  · exact hs (by simp [hp])
  · exact hs (by simp [hp])
  · exact absurd rfl (ha _)
  · exact absurd rfl (ha _)
  · split at ha
    · assumption
    · exact absurd rfl (ha _)

/-- A memory event needs VALID (40_control.md R143). -/
theorem action_valid (i : Instr) (s : State) (hs : s.pos ≠ .start → s.status.valid = true)
    (ha : ∀ t, action i s ≠ .last t) : s.status.valid = true := by
  cases i with
  | nop | validate | clrerr | tmdec word => exact absurd rfl (ha _)
  | tmfetch mt ent => exact singleRead_valid _ _ _ s ha
  | pixidx tile row col => exact singleRead_valid _ _ _ s ha
  | palres sel idx =>
    rw [action, actPalres] at ha
    split at ha
    · exact absurd rfl (ha _)
    · exact singleRead_valid _ _ _ s ha
  | mtbuild mt => rw [action, actMtbuild] at ha; exact frameCommand_valid _ _ _ s hs ha
  | raster => rw [action, actRaster] at ha; exact frameCommand_valid _ _ _ s hs ha

/-- Performing an action that does not end the command leads to a position of the command. -/
theorem perform_fits (i : Instr) (a : Action) (s t : State) (ha : a.Fits i) (hlast : ∀ u, a ≠ .last u) (hs : s.pos.Fits i)
    (h : perform a s = .next t) : t.pos.Fits i := by
  cases a with
  | last u => exact absurd rfl (hlast u)
  | read off n next =>
    obtain ⟨hreads, hnext⟩ := ha
    rcases snapRead_cases s off n next with ⟨h1, -⟩ | ⟨h1, -⟩ | ⟨h1, -⟩ <;> rw [perform, h1] at h <;> cases h
    · exact .inl ⟨rfl, hreads⟩
    · exact hnext _ (State.snapBytes_length s off n)
  | write p c next =>
    obtain ⟨hframe, hnext⟩ := ha
    rw [perform] at h
    cases h
    rcases frameWrite_cases s p c next with ⟨h1, -⟩ | ⟨rest, -, h1⟩ | ⟨rest, -, h1⟩ <;> rw [h1]
    · exact hs
    · exact hnext
    · exact .inr ⟨rfl, hframe⟩

end Sys2Proof.Machine
end

section
/-! Every step of the core, and so every run of a command, keeps the invariant. -/
namespace Sys2Proof.Machine

variable {s t : State}

/-- A command in flight under the invariant, by the command its word names. -/
def State.Running (s : State) (w : Word) (i : Instr) : Prop :=
  s.Inv ∧ s.latch = some w ∧ decode w = .ok i

theorem State.InFlightOk.fits {w : Word} {i : Instr} (h : s.InFlightOk w) (hw : decode w = .ok i) : s.pos.Fits i := by
  obtain ⟨-, -, -, hpos⟩ := h
  simpa only [hw] using hpos

theorem coreStep_running (w : Word) (i : Instr) (h : s.Running w i) (hlast : ∀ u, action i s ≠ .last u)
    (hstep : coreStep i s = .next t) : t.Running w i := by
  obtain ⟨hinv, hlatch, hw⟩ := h
  have hflight := hinv.inFlight w hlatch
  have hpos := hflight.fits hw
  have hfits := perform_fits i _ s t (action_fits i s hpos) hlast hpos hstep
  obtain ⟨hbusy, hvalid, hframe, -⟩ := hflight
  have hv := action_valid i s hvalid hlast
  rw [perform_not_last _ s t hstep hlast]
  have hreg := hinv.regInv
  have hreg' : ({ s with pos := t.pos, sink := t.sink, frame := t.frame } : State).RegInv :=
    ⟨hreg.status, hreg.valid, hreg.reserved, hreg.snapWf, hreg.snapBound⟩
  exact ⟨hreg'.inv_of_inFlight hlatch ⟨hbusy, fun _ => hv, hframe, by rw [hw]; exact hfits⟩, hlatch, hw⟩

theorem coreStep_last_inv (w : Word) (i : Instr) (h : s.Running w i) (hlast : action i s = .last t) : t.Inv := by
  obtain ⟨hinv, hlatch, -⟩ := h
  obtain ⟨hbusy, -⟩ := hinv.inFlight w hlatch
  exact action_last_inv i hinv.regInv hbusy hlast

theorem coreStep_inv (w : Word) (i : Instr) (h : s.Running w i) (hstep : coreStep i s = .next t) : t.Inv := by
  by_cases hlast : ∃ u, action i s = .last u
  · obtain ⟨u, hu⟩ := hlast
    rw [coreStep, hu] at hstep
    cases hstep
    exact coreStep_last_inv w i h hu
  · exact (coreStep_running w i h (not_exists.1 hlast) hstep).1

theorem exec_inv (w : Word) (i : Instr) (h : s.Running w i) (hexec : exec i s = .next t) : t.Inv := by
  rw [exec_eq_run] at hexec
  refine runCommand_induct (action i) (State.Running · w i) State.Inv (fun u v hu hv hgo => ?_)
    (fun u v hu hv _ => coreStep_inv w i hu hv) (fun u hu => hu.1) commandFuel s t h hexec
  refine coreStep_running w i hu (fun x hx => ?_) hv
  rw [hx] at hgo
  cases hgo

/-- R303: the abort of a word that is no command. -/
theorem illegalStep_inv (w : Word) (h : s.Inv) (hlatch : s.latch = some w) : (illegalStep s).Inv := by
  obtain ⟨hbusy, -⟩ := h.inFlight w hlatch
  exact (h.regInv.raise hbusy .illegalCommand 0).inv_of_idle rfl rfl rfl

/-- What holds of every command's step `f` holds of the core's move by `f`. -/
theorem withLatched_inv (f : Instr → State → Result) (hf : ∀ w i, s.Running w i → f i s = .next t → t.Inv) (h : s.Inv)
    (hmove : withLatched f s = .next t) : t.Inv := by
  rw [withLatched] at hmove
  split at hmove
  · cases hmove; exact h
  · split at hmove
    · exact hf _ _ ⟨h, ‹_›, ‹_›⟩ hmove
    · cases hmove; exact illegalStep_inv _ h ‹_›

theorem runMove_inv (h : s.Inv) (hmove : runMove s = .next t) : t.Inv :=
  withLatched_inv exec exec_inv h hmove

theorem coreMove_inv (h : s.Inv) (hmove : coreMove s = .next t) : t.Inv :=
  withLatched_inv coreStep coreStep_inv h hmove

end Sys2Proof.Machine
end

section
/-! Every host access and every reset keeps the invariant. -/
namespace Sys2Proof.Machine

section

variable {s t : State}

theorem State.Inv.softReset (h : s.Inv) : s.softReset.Inv :=
  (State.RegInv.of_reset (s := s.softReset) rfl rfl rfl rfl rfl h.snapWf h.snapBound).inv_of_idle rfl rfl rfl

theorem powerCycle_inv (s : State) : s.powerCycle.Inv :=
  (State.RegInv.of_reset (s := s.powerCycle) rfl rfl rfl rfl rfl rfl (fun _ hc => by cases hc)).inv_of_idle rfl rfl rfl

/-- R301, R302, R235: a word accepted is in flight, at its first event. -/
theorem State.Inv.accept (h : s.Inv) (w : Word) : (s.accept w).Inv := by
  have hreg : (s.accept w).RegInv := ⟨.accept _ _, h.valid, h.reserved, h.snapWf, h.snapBound⟩
  refine hreg.inv_of_inFlight rfl ⟨rfl, fun hp => absurd rfl hp, fun hw => ?_, ?_⟩
  · rw [State.accept_status, Status.accept_frameValid, if_pos hw]
  · split
    · trivial
    · rfl

theorem writeCtrl_inv (h : s.Inv) (v : Word) : (writeCtrl v s).Inv := by
  rw [writeCtrl]
  split
  · exact h.softReset
  · exact h

theorem writeCmd_inv (h : s.Inv) (w : Word) : (writeCmd w s).Inv := by
  rw [writeCmd]
  split
  · exact h.sticky s.status.setCmdOvf rfl
  · exact h.accept w

/-- A write that lapses validity finds the block idle (R62). -/
theorem State.Inv.lapse (h : s.Inv) (hb : s.status.busy = false) (size : Word) (m : Memory) (hwf : m.wf = true)
    (hbound : ∀ c ∈ m, c.1 < s.cfg.val.snapMax) :
    ({ s with snapSize := size, snap := m, status := s.status.setValid false } : State).Inv := by
  have hlatch := h.latch_of_idle hb
  obtain ⟨-, hpos⟩ := h.idle hlatch
  have hreg : ({ s with snapSize := size, snap := m, status := s.status.setValid false } : State).RegInv :=
    ⟨h.status.congr rfl rfl rfl rfl, (nomatch ·), h.reserved, hwf, hbound⟩
  exact hreg.inv_of_idle hlatch hb hpos

theorem writeSnapSize_inv (h : s.Inv) (v : Word) : (writeSnapSize v s).Inv := by
  rw [writeSnapSize]
  split
  · exact h.sticky s.status.setWlock rfl
  · exact h.lapse (Bool.eq_false_iff.2 ‹_›) v s.snap h.snapWf h.snapBound

theorem writeSnap_inv (h : s.Inv) (off : Nat) (v : Byte) (hoff : off < s.cfg.val.snapMax) : (writeSnap off v s).Inv := by
  rw [writeSnap]
  split
  · exact h.sticky s.status.setWlock rfl
  · exact h.lapse (Bool.eq_false_iff.2 ‹_›) s.snapSize (s.snap.set off v) (Memory.set_wf _ _ _ h.snapWf)
      (Memory.set_bound _ _ _ _ h.snapBound hoff)

theorem writeReg_inv (h : s.Inv) (r : Reg) (v : Word) : (writeReg r v s).Inv := by
  cases r with
  | ctrl => exact writeCtrl_inv h v
  | cmd => exact writeCmd_inv h v
  | snapSize => exact writeSnapSize_inv h v
  | status | fmtIdx | resEntry | resIndex | resRgb | errAddr => exact h

theorem State.Inv.answer (h : s.Inv) (r : Reply) : (s.answer r).Inv :=
  h.hostSide s.sched (r :: s.replies)

theorem hostAccess_inv (h : s.Inv) (a : Access) : (hostAccess a s).Inv := by
  cases a with
  | regRead width off =>
    rw [hostAccess]
    split <;> exact h.answer _
  | regWrite width off v =>
    rw [hostAccess]
    split
    · exact (writeReg_inv h _ v).answer _
    · exact h.answer _
  | snapRead off =>
    rw [hostAccess]
    split <;> exact h.answer _
  | snapWrite off v =>
    rw [hostAccess]
    split
    · exact (writeSnap_inv h off v ‹_›).answer _
    · exact h.answer _

theorem move_inv (m : Move) (h : s.Inv) (hmove : move m s = .next t) : t.Inv := by
  cases m with
  | host a => cases hmove; exact hostAccess_inv h a
  | core => exact coreMove_inv h hmove
  | run => exact runMove_inv h hmove
  | wait gaps =>
    cases hmove
    rw [waitMove_frame]
    exact h.hostSide _ _
  | powerOn => cases hmove; exact powerCycle_inv s

end

/-- Settles O10: what the invariant says of the registers and of SNAP, and what it says of the command in flight, are kept
by every kind of move. -/
theorem stepKeepsInv : Obligations.StepKeepsInv := by
  intro s t h hstep
  rw [step, nextMove] at hstep
  split at hstep
  · exact runMove_inv h hstep
  · exact move_inv _ (h.hostSide _ s.replies) hstep

end Sys2Proof.Machine
end

section
/-! Bytes at or above SNAP_SIZE (10_state.md R30): a command run over two memories that agree below SNAP_SIZE takes the same
steps. -/
namespace Sys2Proof.Machine

/-- What the core can read of memory `m` is what it can read of the state's own. -/
def State.AgreesBelowSize (s : State) (m : Memory) : Prop :=
  ∀ a, a < s.snapSize.toNat → m.get? a = s.snap.get? a

/-- The same outcome over memory `m`. -/
def Result.withSnap (m : Memory) : Result → Result
  | .next t => .next { t with snap := m }
  | .fault r => .fault r
  | .refused r => .refused r

/-- The same action over memory `m`. -/
def Action.withSnap (m : Memory) : Action → Action
  | .last t => .last { t with snap := m }
  | .read off n next => .read off n next
  | .write p colour next => .write p colour next

section

variable {s : State} {m : Memory}

theorem State.AgreesBelowSize.snapBytes_eq (h : s.AgreesBelowSize m) (off n : Nat) (hr : off + n ≤ s.snapSize.toNat) :
    ({ s with snap := m } : State).snapBytes off n = s.snapBytes off n :=
  List.map_congr_left fun k hk => by
    have hlt : k < n := List.mem_range.1 hk
    rw [State.snapByte, State.snapByte, h (off + k) (by omega)]

theorem State.AgreesBelowSize.coversUnwritten_eq (h : s.AgreesBelowSize m) (off n : Nat)
    (hr : off + n ≤ s.snapSize.toNat) :
    ({ s with snap := m } : State).coversUnwritten off n = s.coversUnwritten off n := by
  rw [State.coversUnwritten, State.coversUnwritten, Bool.eq_iff_iff, List.any_eq_true, List.any_eq_true]
  refine exists_congr fun k => and_congr_right fun hk => ?_
  have hlt : k < n := List.mem_range.1 hk
  rw [h (off + k) (by omega)]

/-- R64: a read out of range reads nothing, one in range reads below SNAP_SIZE only. -/
theorem snapRead_withSnap (h : s.AgreesBelowSize m) (off n : Nat) (next : List Byte → Pos) :
    snapRead off n next { s with snap := m } = (snapRead off n next s).withSnap m := by
  by_cases hr : s.snapSize.toNat < off + n
  · rw [snapRead_outOfRange s off n next hr, snapRead_outOfRange { s with snap := m } off n next hr]
    rfl
  · have hr' : off + n ≤ s.snapSize.toNat := Nat.le_of_not_lt hr
    simp only [snapRead, if_neg hr, h.snapBytes_eq off n hr', h.coversUnwritten_eq off n hr']
    split <;> rfl

theorem frameWrite_withSnap (s : State) (m : Memory) (p : Nat) (c : RGB) (next : Pos) :
    frameWrite p c next { s with snap := m } = { frameWrite p c next s with snap := m } := by
  simp only [frameWrite]
  split
  · rfl
  · rfl
  · rfl

theorem perform_withSnap (h : s.AgreesBelowSize m) (a : Action) :
    perform (a.withSnap m) { s with snap := m } = (perform a s).withSnap m := by
  cases a with
  | last t => rfl
  | read off n next => exact snapRead_withSnap h off n next
  | write p c next => exact congrArg Host.Outcome.next (frameWrite_withSnap s m p c next)

theorem Action.stops_withSnap (a : Action) (s : State) (m : Memory) :
    (a.withSnap m).stops { s with snap := m } = a.stops s := by
  cases a <;> rfl

theorem singleRead_withSnap (off n : Nat) (result result' : List Byte → State) (s : State) (m : Memory)
    (hresult : ∀ bytes, result' bytes = { result bytes with snap := m }) :
    singleRead off n result' { s with snap := m } = (singleRead off n result s).withSnap m := by
  simp only [singleRead, hresult]
  split
  · rfl
  · rfl
  · split <;> rfl

theorem frameCommand_withSnap (first : Nat) (after : List Byte → Nat → Pos) (finish : State → State) (s : State)
    (m : Memory) (hfinish : finish { s with snap := m } = { finish s with snap := m }) :
    frameCommand first after finish { s with snap := m } = (frameCommand first after finish s).withSnap m := by
  simp only [frameCommand, hfinish]
  split
  · rfl
  · rfl
  · rfl
  · rfl
  · rfl
  · split <;> rfl

/-- Which event comes next does not depend on SNAP: what a command has read is in its position (R38). -/
theorem action_withSnap (i : Instr) (s : State) (m : Memory) :
    action i { s with snap := m } = (action i s).withSnap m := by
  cases i with
  | nop | clrerr | tmdec word => rfl
  | validate =>
    simp only [action, actValidate]
    split <;> rfl
  | tmfetch mt ent => exact singleRead_withSnap _ _ _ _ s m fun _ => rfl
  | pixidx tile row col => exact singleRead_withSnap _ _ _ _ s m fun _ => rfl
  | palres sel idx =>
    simp only [action, actPalres]
    split
    · split <;> rfl
    · exact singleRead_withSnap _ _ _ _ s m fun _ => rfl
  | mtbuild mt => exact frameCommand_withSnap mt (fun _ _ => .emitted) (fun t => t) s m rfl
  | raster =>
    exact frameCommand_withSnap 0 afterMetatile (fun t => { t with status := t.status.setFrameValid }) s m rfl

theorem State.AgreesBelowSize.of_coreStep (h : s.AgreesBelowSize m) (i : Instr) {t : State}
    (hstep : coreStep i s = .next t) : t.AgreesBelowSize m := by
  obtain ⟨-, hsize, hsnap, -⟩ := coreStep_sameOutside i s t hstep
  rw [State.AgreesBelowSize, hsize, hsnap]
  exact h

theorem runCommand_withSnap (i : Instr) (n : Nat) (h : s.AgreesBelowSize m) :
    runCommand (action i) n { s with snap := m } = (runCommand (action i) n s).withSnap m := by
  induction n generalizing s with
  | zero => rfl
  | succ n ih =>
    rw [runCommand, runCommand, action_withSnap, perform_withSnap h, Action.stops_withSnap]
    cases hp : perform (action i s) s with
    | next t =>
      simp only [Result.withSnap]
      split
      · rfl
      · exact ih (h.of_coreStep i hp)
    | fault r => rfl
    | refused r => rfl

theorem exec_withSnap (i : Instr) (h : s.AgreesBelowSize m) :
    exec i { s with snap := m } = Result.withSnap m (exec i s) := by
  rw [exec_eq_run, exec_eq_run, runCommand_withSnap i commandFuel h]

end

/-- Settles O51, by induction on the steps of the run: each performs the same action over either memory. -/
theorem bytesBeyondSnapSizeAreInvisible : Obligations.BytesBeyondSnapSizeAreInvisible := by
  intro s i m h
  refine ⟨fun t ht => ?_, fun r hr => ?_⟩
  · rw [exec_withSnap i h, ht]
    rfl
  · rw [exec_withSnap i h, hr]
    rfl

end Sys2Proof.Machine
end

section
/-! What a step does whose next move is a host access, register by register (10_state.md R24). -/
namespace Sys2Proof.Machine

theorem step_move (s : State) (m : Move) (rest : List Move) (h : s.sched = m :: rest) :
    step s = move m { s with sched := rest } := by
  rw [step, nextMove, h]

theorem step_host (s : State) (a : Access) (rest : List Move) (h : s.sched = .host a :: rest) :
    step s = .next (hostAccess a { s with sched := rest }) := by
  rw [step_move s (.host a) rest h, move]

theorem regAt_offset (r : Reg) : regAt r.offset = some r := by
  cases r <;> rfl

theorem offset_of_regAt {off : Nat} {r : Reg} (h : regAt off = some r) : r.offset = off := by
  unfold regAt at h
  split at h <;> cases h <;> rfl

theorem regTarget_offset (r : Reg) : regTarget 32 r.offset = some r := by
  rw [regTarget, if_pos rfl, regAt_offset]

/-- R23: the registers stand at the multiples of 4 below 0x24. -/
theorem Reg.offset_aligned (r : Reg) : r.offset % 4 = 0 ∧ r.offset < 0x24 := by
  cases r <;> decide

/-- R24, R36: no register is reached by another width, at an unaligned offset, or at 0x24 or above. -/
theorem regTarget_invalid (width off : Nat) (h : width ≠ 32 ∨ off % 4 ≠ 0 ∨ 0x24 ≤ off) : regTarget width off = none := by
  rw [regTarget]
  split
  · cases hr : regAt off with
    | none => rfl
    | some r =>
      have halign := r.offset_aligned
      rw [offset_of_regAt hr] at halign
      omega
  · rfl

theorem hostAccess_regRead (r : Reg) (s : State) :
    hostAccess (.regRead 32 r.offset) s = s.answer (.word (readReg r s)) := by
  rw [hostAccess, regTarget_offset]

theorem hostAccess_regWrite (r : Reg) (v : Word) (s : State) :
    hostAccess (.regWrite 32 r.offset v) s = (writeReg r v s).answer .accepted := by
  rw [hostAccess, regTarget_offset]

theorem readReg_sched (r : Reg) (s : State) (sched : List Move) : readReg r { s with sched := sched } = readReg r s := by
  cases r <;> rfl

theorem step_regRead (s : State) (r : Reg) (rest : List Move) (h : s.sched = .host (.regRead 32 r.offset) :: rest) :
    step s = .next { s with sched := rest, replies := .word (readReg r s) :: s.replies } := by
  rw [step_host s _ rest h, hostAccess_regRead, readReg_sched]
  rfl

theorem step_regWrite (s : State) (r : Reg) (v : Word) (rest : List Move)
    (h : s.sched = .host (.regWrite 32 r.offset v) :: rest) :
    step s = .next ((writeReg r v { s with sched := rest }).answer .accepted) := by
  rw [step_host s _ rest h, hostAccess_regWrite]

/-- Settles O21: an invalid access reaches no register and no snapshot byte. -/
theorem invalidAccessesChangeNothing : Obligations.InvalidAccessesChangeNothing := by
  rintro s a rest hs (⟨width, off, v, ha, hinvalid⟩ | ⟨off, v, ha, hoff⟩)
  · have hnone := regTarget_invalid width off hinvalid
    rw [step_host s a rest hs]
    rcases ha with rfl | rfl
    · rw [hostAccess, hnone]; rfl
    · rw [hostAccess, hnone]; rfl
  · have hmax : ¬ off < s.cfg.val.snapMax := Nat.not_lt.2 hoff
    rw [step_host s a rest hs]
    rcases ha with rfl | rfl
    · rw [hostAccess, if_neg hmax]; rfl
    · rw [hostAccess, if_neg hmax]; rfl

/-- A mask of the low `k` bits keeps the number modulo `2^k` (R24: reserved bits read 0). -/
theorem toNat_and_lowMask (w : Word) (k : Nat) (hk : k ≤ 32) : (w &&& BitVec.ofNat 32 (2 ^ k - 1)).toNat = w.toNat % 2 ^ k := by
  have hpow : 2 ^ k ≤ 2 ^ 32 := Nat.pow_le_pow_right (by decide) hk
  have hpos : 0 < 2 ^ k := Nat.two_pow_pos k
  rw [BitVec.toNat_and, BitVec.toNat_ofNat, Nat.mod_eq_of_lt (by omega), Nat.and_two_pow_sub_one_eq_mod]

theorem readReg_toNat (r : Reg) (s : State) : (readReg r s).toNat = registerValue s r := by
  cases r with
  | ctrl | status | cmd | snapSize | errAddr => rfl
  | fmtIdx => exact toNat_and_lowMask s.fmtIdx 4 (by decide)
  | resEntry => exact toNat_and_lowMask s.resEntry 16 (by decide)
  | resIndex => exact toNat_and_lowMask s.resIndex 4 (by decide)
  | resRgb => exact toNat_and_lowMask s.resRgb 24 (by decide)

/-- Settles O22: the port answers `readReg`, whose value is the register's with its reserved bits 0. -/
theorem registerReadsHaveNoSideEffect : Obligations.RegisterReadsHaveNoSideEffect :=
  fun s r rest hs => ⟨readReg r s, readReg_toNat r s, step_regRead s r rest hs⟩

theorem writeReg_readOnly (r : Reg) (v : Word) (s : State)
    (hr : r ∈ [Reg.status, .fmtIdx, .resEntry, .resIndex, .resRgb, .errAddr]) : writeReg r v s = s := by
  cases r with
  | ctrl | cmd | snapSize => simp at hr
  | status | fmtIdx | resEntry | resIndex | resRgb | errAddr => rfl

/-- Settles O23: the written state is the state before, in either case. -/
theorem writesWithoutEffect : Obligations.WritesWithoutEffect := by
  rintro s r v rest hs (hr | ⟨rfl, hv⟩)
  · rw [step_regWrite s r v rest hs, writeReg_readOnly r v _ hr]
    rfl
  · rw [step_regWrite s .ctrl v rest hs, writeReg, writeCtrl, if_neg (by rw [hv]; decide)]
    rfl

/-- Settles O18: `writeCmd` drops the word or accepts it, by BUSY. -/
theorem cmdWriteIssuesOrIsDropped : Obligations.CmdWriteIssuesOrIsDropped := by
  refine ⟨fun s rest hs => step_regRead s .cmd rest hs, fun s w rest hb hs => ⟨_, step_regWrite s .cmd w rest hs, ?_⟩,
    fun s w rest hb hs => ?_⟩
  · have hidle : writeCmd w { s with sched := rest } = ({ s with sched := rest } : State).accept w :=
      if_neg (by simp [hb])
    rw [writeReg, hidle]
    rfl
  · have hbusy : writeCmd w { s with sched := rest } = { s with sched := rest, status := s.status.setCmdOvf } :=
      if_pos hb
    rw [step_regWrite s .cmd w rest hs, writeReg, hbusy]
    rfl

end Sys2Proof.Machine
end

section
/-! The two resets (10_state.md R42, 70_reset_and_hazards.md R340, R341). -/
namespace Sys2Proof.Machine

/-- What both resets leave in the block: every register at its reset value, no command in flight. -/
structure State.AtReset (t : State) : Prop where
  status : t.status = Status.reset
  snapSize : t.snapSize = 0#32
  fmtIdx : t.fmtIdx = 0#32
  resEntry : t.resEntry = 0#32
  resIndex : t.resIndex = 0#32
  resRgb : t.resRgb = 0#32
  errAddr : t.errAddr = 0#32
  latch : t.latch = none
  pos : t.pos = .start

theorem softReset_atReset (s : State) : s.softReset.AtReset := ⟨rfl, rfl, rfl, rfl, rfl, rfl, rfl, rfl, rfl⟩

theorem powerCycle_atReset (s : State) : s.powerCycle.AtReset := ⟨rfl, rfl, rfl, rfl, rfl, rfl, rfl, rfl, rfl⟩

theorem State.AtReset.readReg_eq_zero {t : State} (h : t.AtReset) (r : Reg) : readReg r t = 0#32 := by
  cases r with
  | ctrl | cmd => rfl
  | status => rw [readReg, h.status]; decide
  | snapSize => exact h.snapSize
  | fmtIdx => rw [readReg, h.fmtIdx]; decide
  | resEntry => rw [readReg, h.resEntry]; decide
  | resIndex => rw [readReg, h.resIndex]; decide
  | resRgb => rw [readReg, h.resRgb]; decide
  | errAddr => exact h.errAddr

theorem step_powerOn (s : State) (rest : List Move) (h : s.sched = .powerOn :: rest) :
    step s = .next ({ s with sched := rest } : State).powerCycle := by
  rw [step_move s .powerOn rest h, move]

/-- R25: a CTRL write with bit 0 = 1 is a soft reset. -/
theorem step_softReset (s : State) (v : Word) (rest : List Move) (hv : v.getLsbD 0 = true)
    (h : s.sched = .host (.regWrite 32 0x00 v) :: rest) :
    step s = .next (({ s with sched := rest } : State).softReset.answer .accepted) := by
  rw [step_regWrite s .ctrl v rest h, writeReg, writeCtrl, if_pos hv]

/-- Settles O7: both resets leave `State.AtReset`; power-on also leaves SNAP unwritten, a soft reset leaves it alone. -/
theorem resetsLeaveResetValues : Obligations.ResetsLeaveResetValues := by
  rintro s t m rest hs (rfl | ⟨v, hv, rfl⟩) hstep
  · rw [step_powerOn s rest hs] at hstep
    cases hstep
    have h := powerCycle_atReset { s with sched := rest }
    exact ⟨h.readReg_eq_zero, h.status, h.snapSize, h.fmtIdx, h.resEntry, h.resIndex, h.resRgb, h.errAddr, h.latch, h.pos,
      fun _ _ => rfl, fun hm => absurd rfl hm, rfl, rfl⟩
  · rw [step_softReset s v rest hv hs] at hstep
    cases hstep
    have h : (({ s with sched := rest } : State).softReset.answer .accepted).AtReset :=
      ⟨rfl, rfl, rfl, rfl, rfl, rfl, rfl, rfl, rfl⟩
    exact ⟨h.readReg_eq_zero, h.status, h.snapSize, h.fmtIdx, h.resEntry, h.resIndex, h.resRgb, h.errAddr, h.latch, h.pos,
      (fun hm => by cases hm), fun _ _ => rfl, rfl, rfl⟩

theorem powerOn_inv (c : Build) (n : Nat) : (State.powerOn c n).Inv :=
  (State.RegInv.of_reset (s := State.powerOn c n) rfl rfl rfl rfl rfl rfl (fun _ hc => by cases hc)).inv_of_idle rfl rfl rfl

/-- FRAME_VALID = 0 and no RASTER is in flight. -/
theorem powerOn_frameInv (c : Build) (n : Nat) : (State.powerOn c n).FrameInv :=
  ⟨(nomatch ·), fun _ h => by cases h⟩

/-- Settles O9: after power-on nothing is in flight, VALID and FRAME_VALID are 0 and SNAP is unwritten. -/
theorem invHoldsAfterPowerOn : Obligations.InvHoldsAfterPowerOn :=
  ⟨fun c n => ⟨powerOn_inv c n, powerOn_frameInv c n⟩, powerOn_inv Config.build 0, powerOn_frameInv Config.build 0⟩

end Sys2Proof.Machine
end

section
/-! The fields of STATUS in its word (10_state.md R26). -/
namespace Sys2Proof.Machine

theorem getLsbD_ofNat_of_digit (n k : Nat) (b : Bool) (hk : k < 32) (h : n / 2 ^ k % 2 = b.toNat) :
    (BitVec.ofNat 32 n).getLsbD k = b := by
  rw [BitVec.getLsbD_ofNat, Nat.testBit_eq_decide_div_mod_eq, h]
  cases b <;> simp [hk]

/-- Settles O24: each field is a digit of the sum that `Status.toWord` writes. -/
theorem statusWordBits : Obligations.StatusWordBits := by
  intro f
  have hbusy := Bool.toNat_le f.busy
  have hdone := Bool.toNat_le f.done
  have hvalid := Bool.toNat_le f.valid
  have herr := Bool.toNat_le f.err
  have hcode : f.errCode.toNat < 16 := f.errCode.isLt
  have hframe := Bool.toNat_le f.frameValid
  have hovf := Bool.toNat_le f.cmdOvf
  have hwlock := Bool.toNat_le f.wlock
  rw [Status.toWord]
  refine ⟨getLsbD_ofNat_of_digit _ 0 _ (by decide) (by omega), getLsbD_ofNat_of_digit _ 1 _ (by decide) (by omega),
    getLsbD_ofNat_of_digit _ 2 _ (by decide) (by omega), getLsbD_ofNat_of_digit _ 3 _ (by decide) (by omega),
    BitVec.eq_of_toNat_eq ?_, getLsbD_ofNat_of_digit _ 8 _ (by decide) (by omega),
    getLsbD_ofNat_of_digit _ 9 _ (by decide) (by omega), getLsbD_ofNat_of_digit _ 10 _ (by decide) (by omega),
    fun n hn => getLsbD_ofNat_of_lt _ 11 n (by omega) hn⟩
  rw [BitVec.extractLsb'_toNat, BitVec.toNat_ofNat, Nat.shiftRight_eq_div_pow]
  omega

end Sys2Proof.Machine
end

section
/-! The snapshot port and SNAP_SIZE, idle and while BUSY (20_memory.md R61, R62). -/
namespace Sys2Proof.Machine

theorem step_snapRead (s : State) (a : Nat) (rest : List Move) (ha : a < s.cfg.val.snapMax)
    (h : s.sched = .host (.snapRead a) :: rest) :
    step s = .next { s with sched := rest, replies := .byte (s.snapByte a) :: s.replies } := by
  rw [step_host s _ rest h, hostAccess, if_pos ha]
  rfl

theorem step_snapWrite (s : State) (a : Nat) (v : Byte) (rest : List Move) (ha : a < s.cfg.val.snapMax)
    (h : s.sched = .host (.snapWrite a v) :: rest) :
    step s = .next ((writeSnap a v { s with sched := rest }).answer .accepted) := by
  rw [step_host s _ rest h, hostAccess, if_pos ha]

theorem writeSnap_idle (s : State) (a : Nat) (v : Byte) (hb : s.status.busy = false) :
    writeSnap a v s = { s with snap := s.snap.set a v, status := s.status.setValid false } :=
  if_neg (by simp [hb])

theorem writeSnap_busy (s : State) (a : Nat) (v : Byte) (hb : s.status.busy = true) :
    writeSnap a v s = { s with status := s.status.setWlock } :=
  if_pos hb

theorem writeSnapSize_idle (s : State) (v : Word) (hb : s.status.busy = false) :
    writeSnapSize v s = { s with snapSize := v, status := s.status.setValid false } :=
  if_neg (by simp [hb])

theorem writeSnapSize_busy (s : State) (v : Word) (hb : s.status.busy = true) :
    writeSnapSize v s = { s with status := s.status.setWlock } :=
  if_pos hb

theorem step_snapWrite_idle (s : State) (a : Nat) (v : Byte) (rest : List Move) (hb : s.status.busy = false)
    (ha : a < s.cfg.val.snapMax) (h : s.sched = .host (.snapWrite a v) :: rest) :
    step s = .next { s with
      sched := rest, replies := .accepted :: s.replies, snap := s.snap.set a v, status := s.status.setValid false } := by
  rw [step_snapWrite s a v rest ha h, writeSnap_idle { s with sched := rest } a v hb]
  rfl

theorem State.snapByte_of_get? (s : State) (a : Nat) (v : Byte) (h : s.snap.get? a = some v) : s.snapByte a = v := by
  rw [State.snapByte, h, Option.getD_some]

/-- Settles O19: `writeSnap` and `writeSnapSize` perform the write or set WLOCK, by BUSY. -/
theorem snapshotWritesAndTheWriteLock : Obligations.SnapshotWritesAndTheWriteLock := by
  refine ⟨fun s a v rest hb ha hs => ⟨s.snap.set a v, Memory.get?_set_same s.snap a v,
      fun b hne => Memory.get?_set_other s.snap a b v hne, step_snapWrite_idle s a v rest hb ha hs⟩,
    fun s v rest hb hs => ?_, ?_⟩
  · rw [step_regWrite s .snapSize v rest hs, writeReg, writeSnapSize_idle { s with sched := rest } v hb]
    rfl
  · rintro s a rest hb hs (⟨off, v, rfl, hoff⟩ | ⟨v, rfl⟩)
    · rw [step_snapWrite s off v rest hoff hs, writeSnap_busy { s with sched := rest } off v hb]
      rfl
    · rw [step_regWrite s .snapSize v rest hs, writeReg, writeSnapSize_busy { s with sched := rest } v hb]
      rfl

/-- Settles O20: the byte read after an idle write is the one `Memory.set` put there. -/
theorem snapshotPortReads : Obligations.SnapshotPortReads := by
  refine ⟨fun s a rest hs => ⟨fun ha => step_snapRead s a rest ha hs,
    fun ha => invalidAccessesChangeNothing s _ rest hs (.inr ⟨a, 0#8, .inl rfl, ha⟩)⟩, fun s a v rest hb ha hs => ?_⟩
  have hwrite := step_snapWrite_idle s a v (.host (.snapRead a) :: rest) hb ha hs
  refine ⟨_, (core_run_next 1 s _ hwrite).trans (core_run_next 0 _ _ (step_snapRead _ a rest ha rfl)), ?_⟩
  rw [State.snapByte_of_get? _ a v (Memory.get?_set_same s.snap a v)]

end Sys2Proof.Machine
end

section
/-! A SnapRead that crosses SNAP_SIZE (20_memory.md R64, 60_exceptions.md R313). -/
namespace Sys2Proof.Machine

theorem errInfo_toNat (info : Nat) (h : info < 2 ^ 32) : (errInfo info).toNat = info := by
  rw [errInfo, if_pos h, BitVec.toNat_ofNat, Nat.mod_eq_of_lt h]

theorem frameCommand_start (first : Nat) (after : List Byte → Nat → Pos) (finish : State → State) (s : State)
    (hp : s.pos = .start) (hv : s.status.valid = true) :
    frameCommand first after finish s = .read s.paletteOffset 256 (fun pal => .reading pal first []) := by
  simp [frameCommand, hp, hv]

/-- R305: for a command that reads memory, the action after a failed memory event is the abort. -/
theorem action_failed_of_read (i : Instr) (s : State) (off n : Nat) (next : List Byte → Pos)
    (h : action i s = .read off n next) (e : CmdError) (info : Nat) :
    action i { s with pos := .failed e info } = .last (({ s with pos := .failed e info } : State).raise e info) := by
  cases i with
  | nop | validate | clrerr | tmdec => cases h
  | tmfetch | pixidx | mtbuild | raster => rfl
  | palres sel idx =>
    have hidx : idx ≠ 0 := by rintro rfl; cases h
    exact if_neg hidx

/-- R64, R305, R313: a command whose next SnapRead crosses SNAP_SIZE aborts with the read's offset; nothing but the abort's
registers changes. -/
theorem exec_abort_of_read_outOfRange (i : Instr) (s : State) (off n : Nat) (next : List Byte → Pos)
    (h : action i s = .read off n next) (hr : s.snapSize.toNat < off + n) :
    ∃ a : Word, (off < 2 ^ 32 → a.toNat = off) ∧ exec i s = .next { s with
      latch := none, pos := .start, errAddr := a
      status := { s.status with busy := false, err := true, errCode := 2#4 } } :=
  ⟨errInfo off, errInfo_toNat off,
    exec_read_outOfRange i s _ off n next h hr (action_failed_of_read i s off n next h .outOfRange off)⟩

/-- Settles O37: the first action of each command is the SnapRead that crosses SNAP_SIZE. -/
theorem firstReadOutOfRangeAborts : Obligations.FirstReadOutOfRangeAborts := by
  intro s i off n hp hv hfirst hr
  have hread : ∃ next, action i s = .read off n next := by
    rcases hfirst with ⟨mt, ent, rfl, rfl, rfl⟩ | ⟨tile, row, col, rfl, rfl, rfl⟩ | ⟨sel, idx, rfl, hidx, rfl, rfl⟩ |
      ⟨⟨mt, rfl⟩ | rfl, rfl, rfl⟩
    · exact ⟨_, singleRead_start _ _ _ s hp hv⟩
    · exact ⟨_, singleRead_start _ _ _ s hp hv⟩
    · exact ⟨_, (if_neg hidx).trans (singleRead_start _ _ _ s hp hv)⟩
    · exact ⟨_, frameCommand_start mt (fun _ _ => .emitted) (fun t => t) s hp hv⟩
    · exact ⟨_, frameCommand_start 0 afterMetatile (fun t => { t with status := t.status.setFrameValid }) s hp hv⟩
  obtain ⟨next, hnext⟩ := hread
  exact exec_abort_of_read_outOfRange i s off n next hnext hr

end Sys2Proof.Machine
end

section
/-! Byte-swap normalization, byte by byte (20_memory.md R66, R68). -/
namespace Sys2Proof.Machine

/-- `k xor 1` stays in `k`'s pair, so moving on by one pair moves it by one pair. -/
theorem add_two_xor_one (k : Nat) : (k + 2) ^^^ 1 = (k ^^^ 1) + 2 := by
  rcases Nat.even_or_odd k with hk | hk
  · rw [Nat.xor_one_of_even hk, Nat.xor_one_of_even (hk.add even_two)]
  · rw [Nat.xor_one_of_odd hk, Nat.xor_one_of_odd (hk.add_even even_two)]
    have := hk.pos
    omega

/-- R66: at every position, beyond the end too, for then the partner of `k` is beyond the end with it. -/
theorem getElem?_bswap (s : List Byte) (h : s.length % 2 = 0) (k : Nat) : (bswap s)[k]? = s[k ^^^ 1]? := by
  induction s using bswap.induct generalizing k with
  | case1 a b s ih =>
    rw [bswap_cons_cons]
    match k with
    | 0 => rfl
    | 1 => rfl
    | k + 2 =>
      rw [add_two_xor_one]
      exact ih (by simp only [List.length_cons] at h; omega) k
  | case2 s hs =>
    match s, hs with
    | [], _ => rw [bswap_nil, List.getElem?_nil, List.getElem?_nil]
    | [a], _ => cases h
    | a :: b :: s, hs => exact absurd rfl (hs a b s)

theorem bswap_bswap (s : List Byte) (h : s.length % 2 = 0) : bswap (bswap s) = s := by
  refine List.ext_getElem? fun k => ?_
  rw [getElem?_bswap _ (by rwa [bswap_length]), getElem?_bswap s h, Nat.xor_xor_cancel_right]

/-- Settles O52: the byte law holds at every position, and `k xor 1 xor 1 = k`. -/
theorem byteSwapNormalization : Obligations.ByteSwapNormalization :=
  fun s h => ⟨bswap_length s, fun k _ => getElem?_bswap s h k, bswap_bswap s h⟩

end Sys2Proof.Machine
end

section
/-! The opcode table by masks (30_encoding.md R110, R111): a row's mask keeps the bits at or above its format's lowest
reserved or opcode bit, so a word matches the row when those bits are the opcode's. -/
namespace Sys2Proof

/-- A mask of the bits at or above `k` clears what is below. -/
theorem toNat_and_highMask (w : Word) (k : Nat) (hk : k ≤ 32) :
    (w &&& BitVec.ofNat 32 (2 ^ 32 - 2 ^ k)).toNat = w.toNat / 2 ^ k * 2 ^ k := by
  have hmask : 2 ^ 32 - 2 ^ k = (2 ^ (32 - k) - 1) <<< k := by
    rw [Nat.shiftLeft_eq, Nat.sub_mul, ← Nat.pow_add, Nat.sub_add_cancel hk, Nat.one_mul]
  rw [← Nat.shiftRight_eq_div_pow, ← Nat.shiftLeft_eq]
  apply Nat.eq_of_testBit_eq
  intro i
  rw [BitVec.toNat_and, BitVec.toNat_ofNat, hmask, Nat.testBit_and, Nat.testBit_mod_two_pow, Nat.testBit_shiftLeft,
    Nat.testBit_shiftLeft, Nat.testBit_shiftRight, Nat.testBit_two_pow_sub_one]
  by_cases hi : k ≤ i
  · by_cases hi32 : i < 32
    · have hik : i - k < 32 - k := by omega
      simp [hi, hi32, hik]
    · have hbit : w.toNat.testBit i = false := w.getLsbD_of_ge i (Nat.le_of_not_lt hi32)
      simp [hi, hi32, hbit]
  · simp [hi]

/-- A word that matches is the match with the operand bits added. -/
theorem toNat_eq_add_of_and_highMask (w : Word) (k n : Nat) (hk : k ≤ 32) (hn : n < 2 ^ 32)
    (h : w &&& BitVec.ofNat 32 (2 ^ 32 - 2 ^ k) = BitVec.ofNat 32 n) : w.toNat = n + w.toNat % 2 ^ k := by
  have hdiv : w.toNat / 2 ^ k * 2 ^ k = n := by
    rw [← toNat_and_highMask w k hk, h, BitVec.toNat_ofNat, Nat.mod_eq_of_lt hn]
  rw [← hdiv, Nat.div_add_mod']

/-- A word matches a row with `k` operand bits when OPC is the row's and the reserved field is 0 (R101 to R107). -/
theorem and_highMask_eq_iff (w : Word) (k opc : Nat) (hk : k ≤ 24) (hopc : opc < 2 ^ 8) :
    w &&& BitVec.ofNat 32 (2 ^ 32 - 2 ^ k) = BitVec.ofNat 32 (opc * 2 ^ 24) ↔
      field w 31 24 = opc ∧ field w 23 k = 0 := by
  have hsplit : 2 ^ 24 = 2 ^ (24 - k) * 2 ^ k := by rw [← Nat.pow_add, Nat.sub_add_cancel hk]
  have hfield : field w 31 24 = w.toNat / 2 ^ k / 2 ^ (24 - k) := by
    have hw := w.isLt
    rw [Nat.div_div_eq_div_mul, Nat.mul_comm, ← hsplit, field]
    omega
  rw [← BitVec.toNat_inj, toNat_and_highMask w k (by omega), BitVec.toNat_ofNat, Nat.mod_eq_of_lt (by omega), hsplit,
    ← Nat.mul_assoc, Nat.mul_left_inj (by positivity), hfield, field, Nat.div_mod_unique (Nat.two_pow_pos _),
    Nat.zero_add, Nat.mul_comm]
  exact ⟨fun h => ⟨h.symm, Nat.two_pow_pos _⟩, fun h => h.1.symm⟩

/-- The rows of R110 by fields: which OPC each has and which field is reserved. -/
theorem matches_row_iff (w : Word) : (∃ r ∈ opcodeTable, w &&& r.mask = r.matchWord) ↔
    (field w 31 24 = 0x00 ∧ field w 23 0 = 0) ∨ (field w 31 24 = 0x01 ∧ field w 23 0 = 0) ∨
    (field w 31 24 = 0x02 ∧ field w 23 0 = 0) ∨ (field w 31 24 = 0x10 ∧ field w 23 16 = 0) ∨
    (field w 31 24 = 0x11 ∧ field w 23 12 = 0) ∨ (field w 31 24 = 0x20 ∧ field w 23 16 = 0) ∨
    (field w 31 24 = 0x30 ∧ field w 23 7 = 0) ∨ (field w 31 24 = 0x40 ∧ field w 23 8 = 0) ∨
    (field w 31 24 = 0x50 ∧ field w 23 0 = 0) := by
  have hrow := and_highMask_eq_iff w
  rw [← hrow 0 0x00 (by decide) (by decide), ← hrow 0 0x01 (by decide) (by decide),
    ← hrow 0 0x02 (by decide) (by decide), ← hrow 16 0x10 (by decide) (by decide),
    ← hrow 12 0x11 (by decide) (by decide), ← hrow 16 0x20 (by decide) (by decide),
    ← hrow 7 0x30 (by decide) (by decide), ← hrow 8 0x40 (by decide) (by decide),
    ← hrow 0 0x50 (by decide) (by decide)]
  simp [opcodeTable]

/-! ### A word matches at most one row -/

/-- Every mask keeps OPC and every match is 0 outside it, so a word that matches gives the match. -/
theorem matchWord_eq_opc (w : Word) (r : Row) (hr : r ∈ opcodeTable) (h : w &&& r.mask = r.matchWord) :
    r.matchWord = w &&& 0xFF000000#32 := by
  have htable : ∀ r ∈ opcodeTable,
      r.mask &&& 0xFF000000#32 = 0xFF000000#32 ∧ r.matchWord &&& 0xFF000000#32 = r.matchWord := by decide
  obtain ⟨hmask, hmatch⟩ := htable r hr
  rw [← hmatch, ← h, BitVec.and_assoc, hmask]

theorem row_unique (w : Word) (r r' : Row) (hr : r ∈ opcodeTable) (hr' : r' ∈ opcodeTable)
    (h : w &&& r.mask = r.matchWord) (h' : w &&& r'.mask = r'.matchWord) : r = r' := by
  have hnodup : (opcodeTable.map Row.matchWord).Nodup := by decide
  exact List.inj_on_of_nodup_map hnodup hr hr' ((matchWord_eq_opc w r hr h).trans (matchWord_eq_opc w r' hr' h').symm)

/-- R111: the search through the table finds the row the word matches. -/
theorem decode_eq_ok_iff_row (w : Word) (i : Instr) :
    decode w = .ok i ↔ ∃ r ∈ opcodeTable, w &&& r.mask = r.matchWord ∧ i = r.operands w := by
  rw [decode]
  cases hfind : opcodeTable.find? (fun r => r.selects w) with
  | none =>
    have hno : ∀ r ∈ opcodeTable, ¬ w &&& r.mask = r.matchWord := by
      simpa [Row.selects] using hfind
    refine ⟨fun h => ?_, fun ⟨r, hr, hm, _⟩ => absurd hm (hno r hr)⟩
    dsimp only at h
    split at h <;> cases h
  | some r =>
    have hr : r ∈ opcodeTable := List.mem_of_find?_eq_some hfind
    have hm : w &&& r.mask = r.matchWord := of_decide_eq_true (List.find?_some hfind :)
    constructor
    · intro h
      cases h
      exact ⟨r, hr, hm, rfl⟩
    · rintro ⟨r', hr', hm', rfl⟩
      rw [row_unique w r r' hr hr' hm hm']

theorem decode_isOk_iff_row (w : Word) :
    (∃ i, decode w = .ok i) ↔ ∃ r ∈ opcodeTable, w &&& r.mask = r.matchWord := by
  constructor
  · rintro ⟨i, h⟩
    obtain ⟨r, hr, hm, -⟩ := (decode_eq_ok_iff_row w i).1 h
    exact ⟨r, hr, hm⟩
  · rintro ⟨r, hr, hm⟩
    exact ⟨r.operands w, (decode_eq_ok_iff_row w _).2 ⟨r, hr, hm, rfl⟩⟩

/-- Settles O3: the search finds a matching row, and the match is the word's OPC, which no two rows share. -/
theorem decodeIsTheMatchingRow : Obligations.DecodeIsTheMatchingRow :=
  ⟨decode_eq_ok_iff_row, fun w r hr r' hr' h h' => by rw [row_unique w r r' hr hr' h h']⟩

end Sys2Proof
end

section
/-! The word of a command as a number (30_encoding.md R101 to R107), and the round trips between words and commands. -/
namespace Sys2Proof

theorem field_lt (w : Word) (hi lo : Nat) : field w hi lo < 2 ^ (hi + 1 - lo) := Nat.mod_lt _ (Nat.two_pow_pos _)

/-- OPC of a command (R109). -/
def Instr.opcode : Instr → Nat
  | .nop => 0x00
  | .validate => 0x01
  | .clrerr => 0x02
  | .tmdec _ => 0x10
  | .tmfetch _ _ => 0x11
  | .pixidx _ _ _ => 0x20
  | .palres _ _ => 0x30
  | .mtbuild _ => 0x40
  | .raster => 0x50

/-- The bits below OPC of a command's word, each operand at its field's weight (R102 to R107). -/
def Instr.operandValue : Instr → Nat
  | .tmdec word => word
  | .tmfetch mt ent => ent * 2 ^ 8 + mt
  | .pixidx tile row col => col * 2 ^ 13 + row * 2 ^ 10 + tile
  | .palres sel idx => sel * 2 ^ 4 + idx
  | .mtbuild mt => mt
  | .nop | .validate | .clrerr | .raster => 0

/-! Operands in range (R103 to R107). -/

theorem wf_tmdec (word : Nat) : (Instr.tmdec word).wf = true ↔ word < 2 ^ 16 := by simp [Instr.wf]

theorem wf_tmfetch (mt ent : Nat) : (Instr.tmfetch mt ent).wf = true ↔ mt < 2 ^ 8 ∧ ent < 2 ^ 4 := by simp [Instr.wf]

theorem wf_pixidx (tile row col : Nat) :
    (Instr.pixidx tile row col).wf = true ↔ tile < 2 ^ 10 ∧ row < 2 ^ 3 ∧ col < 2 ^ 3 := by
  simp [Instr.wf, and_assoc]

theorem wf_palres (sel idx : Nat) : (Instr.palres sel idx).wf = true ↔ sel < 2 ^ 3 ∧ idx < 2 ^ 4 := by simp [Instr.wf]

theorem wf_mtbuild (mt : Nat) : (Instr.mtbuild mt).wf = true ↔ mt < 2 ^ 8 := by simp [Instr.wf]

/-- Words that share no bit are or-ed by adding. -/
theorem ofNat_or_ofNat (a b k : Nat) (ha : a % 2 ^ k = 0) (hb : b < 2 ^ k) :
    BitVec.ofNat 32 a ||| BitVec.ofNat 32 b = BitVec.ofNat 32 (a + b) := by
  have hsum : a + b = a ||| b := by
    rw [← Nat.div_add_mod a (2 ^ k), ha, Nat.add_zero, Nat.two_pow_add_eq_or_of_lt hb]
  rw [hsum, BitVec.ofNat_or]

theorem encode_eq_ofNat (i : Instr) (h : i.wf = true) :
    encode i = BitVec.ofNat 32 (i.opcode * 2 ^ 24 + i.operandValue) := by
  cases i with
  | nop | validate | clrerr | raster => rfl
  | tmdec word =>
    have hword := (wf_tmdec word).1 h
    rw [encode, ofNat_or_ofNat _ _ 16 (by decide) hword]
    exact congrArg _ (by simp only [Instr.opcode, Instr.operandValue]; omega)
  | tmfetch mt ent =>
    obtain ⟨hmt, hent⟩ := (wf_tmfetch mt ent).1 h
    rw [encode, ofNat_shiftLeft, ofNat_or_ofNat _ _ 24 (by decide) (by omega), ofNat_or_ofNat _ _ 8 (by omega) hmt]
    exact congrArg _ (by simp only [Instr.opcode, Instr.operandValue]; omega)
  | pixidx tile row col =>
    obtain ⟨htile, hrow, hcol⟩ := (wf_pixidx tile row col).1 h
    rw [encode, ofNat_shiftLeft, ofNat_shiftLeft, ofNat_or_ofNat _ _ 24 (by decide) (by omega),
      ofNat_or_ofNat _ _ 13 (by omega) (by omega), ofNat_or_ofNat _ _ 10 (by omega) htile]
    exact congrArg _ (by simp only [Instr.opcode, Instr.operandValue]; omega)
  | palres sel idx =>
    obtain ⟨hsel, hidx⟩ := (wf_palres sel idx).1 h
    rw [encode, ofNat_shiftLeft, ofNat_or_ofNat _ _ 24 (by decide) (by omega), ofNat_or_ofNat _ _ 4 (by omega) hidx]
    exact congrArg _ (by simp only [Instr.opcode, Instr.operandValue]; omega)
  | mtbuild mt =>
    have hmt := (wf_mtbuild mt).1 h
    rw [encode, ofNat_or_ofNat _ _ 8 (by decide) hmt]
    exact congrArg _ (by simp only [Instr.opcode, Instr.operandValue]; omega)

theorem Instr.opcode_lt (i : Instr) : i.opcode < 2 ^ 8 := by
  cases i <;> simp [Instr.opcode]

theorem Instr.operandValue_lt (i : Instr) (h : i.wf = true) : i.operandValue < 2 ^ 24 := by
  cases i with
  | nop | validate | clrerr | raster => decide
  | tmdec word =>
    have hword := (wf_tmdec word).1 h
    rw [Instr.operandValue]
    omega
  | tmfetch mt ent =>
    obtain ⟨hmt, hent⟩ := (wf_tmfetch mt ent).1 h
    rw [Instr.operandValue]
    omega
  | pixidx tile row col =>
    obtain ⟨htile, hrow, hcol⟩ := (wf_pixidx tile row col).1 h
    rw [Instr.operandValue]
    omega
  | palres sel idx =>
    obtain ⟨hsel, hidx⟩ := (wf_palres sel idx).1 h
    rw [Instr.operandValue]
    omega
  | mtbuild mt =>
    have hmt := (wf_mtbuild mt).1 h
    rw [Instr.operandValue]
    omega

theorem encode_toNat (i : Instr) (h : i.wf = true) : (encode i).toNat = i.opcode * 2 ^ 24 + i.operandValue := by
  have hopc := i.opcode_lt
  have hval := i.operandValue_lt h
  rw [encode_eq_ofNat i h, BitVec.toNat_ofNat, Nat.mod_eq_of_lt (by omega)]

/-! ### From a word to its command and back -/

/-- A command in range whose opcode the word has above its low `k` bits and whose operands those bits are. -/
theorem wf_and_encode_of_match (w : Word) (i : Instr) (k opc : Nat) (hopc : i.opcode = opc) (hk : k ≤ 24)
    (hwf : i.wf = true) (hm : w &&& BitVec.ofNat 32 (2 ^ 32 - 2 ^ k) = BitVec.ofNat 32 (opc * 2 ^ 24))
    (hv : i.operandValue = w.toNat % 2 ^ k) : i.wf = true ∧ encode i = w := by
  have hlt := i.opcode_lt
  refine ⟨hwf, BitVec.eq_of_toNat_eq ?_⟩
  rw [encode_toNat i hwf, hopc, toNat_eq_add_of_and_highMask w k _ (by omega) (by omega) hm, hv]

/-- The fields a row reads are operands in range, and put back in place they give the word. -/
theorem row_operands (w : Word) (r : Row) (hr : r ∈ opcodeTable) (hm : w &&& r.mask = r.matchWord) :
    (r.operands w).wf = true ∧ encode (r.operands w) = w := by
  simp only [opcodeTable, List.mem_cons, List.not_mem_nil, or_false] at hr
  obtain rfl | rfl | rfl | rfl | rfl | rfl | rfl | rfl | rfl := hr
  · exact wf_and_encode_of_match w .nop 0 0x00 rfl (by decide) rfl hm (Nat.mod_one _).symm
  · exact wf_and_encode_of_match w .validate 0 0x01 rfl (by decide) rfl hm (Nat.mod_one _).symm
  · exact wf_and_encode_of_match w .clrerr 0 0x02 rfl (by decide) rfl hm (Nat.mod_one _).symm
  · exact wf_and_encode_of_match w (.tmdec _) 16 0x10 rfl (by decide) ((wf_tmdec _).2 (field_lt w 15 0)) hm
      (by simp only [Instr.operandValue, field]; omega)
  · exact wf_and_encode_of_match w (.tmfetch _ _) 12 0x11 rfl (by decide)
      ((wf_tmfetch _ _).2 ⟨field_lt w 7 0, field_lt w 11 8⟩) hm
      (by simp only [Instr.operandValue, field]; omega)
  · exact wf_and_encode_of_match w (.pixidx _ _ _) 16 0x20 rfl (by decide)
      ((wf_pixidx _ _ _).2 ⟨field_lt w 9 0, field_lt w 12 10, field_lt w 15 13⟩) hm
      (by simp only [Instr.operandValue, field]; omega)
  · exact wf_and_encode_of_match w (.palres _ _) 7 0x30 rfl (by decide)
      ((wf_palres _ _).2 ⟨field_lt w 6 4, field_lt w 3 0⟩) hm
      (by simp only [Instr.operandValue, field]; omega)
  · exact wf_and_encode_of_match w (.mtbuild _) 8 0x40 rfl (by decide) ((wf_mtbuild _).2 (field_lt w 7 0)) hm
      (by simp only [Instr.operandValue, field]; omega)
  · exact wf_and_encode_of_match w .raster 0 0x50 rfl (by decide) rfl hm (Nat.mod_one _).symm

/-- The fields of a command's word are its operands. -/
theorem operands_encode (i : Instr) (h : i.wf = true) (r : Row) (hr : opcodeTable[Laws.MatchesItsRow.rowOf i]? = some r) :
    r.operands (encode i) = i := by
  have henc := encode_toNat i h
  cases i with
  | nop | validate | clrerr | raster => cases hr; rfl
  | tmdec word =>
    have hword := (wf_tmdec word).1 h
    simp only [Instr.opcode, Instr.operandValue] at henc
    cases hr
    exact congrArg Instr.tmdec (by rw [field, henc]; omega)
  | tmfetch mt ent =>
    obtain ⟨hmt, hent⟩ := (wf_tmfetch mt ent).1 h
    simp only [Instr.opcode, Instr.operandValue] at henc
    cases hr
    exact congrArg₂ Instr.tmfetch (by rw [field, henc]; omega) (by rw [field, henc]; omega)
  | pixidx tile row col =>
    obtain ⟨htile, hrow, hcol⟩ := (wf_pixidx tile row col).1 h
    simp only [Instr.opcode, Instr.operandValue] at henc
    cases hr
    exact congr (congrArg₂ Instr.pixidx (by rw [field, henc]; omega) (by rw [field, henc]; omega))
      (by rw [field, henc]; omega)
  | palres sel idx =>
    obtain ⟨hsel, hidx⟩ := (wf_palres sel idx).1 h
    simp only [Instr.opcode, Instr.operandValue] at henc
    cases hr
    exact congrArg₂ Instr.palres (by rw [field, henc]; omega) (by rw [field, henc]; omega)
  | mtbuild mt =>
    have hmt := (wf_mtbuild mt).1 h
    simp only [Instr.opcode, Instr.operandValue] at henc
    cases hr
    exact congrArg Instr.mtbuild (by rw [field, henc]; omega)

theorem matchesItsRow (i : Instr) : Laws.MatchesItsRow.Statement i := by
  cases i with
  | nop => exact Laws.MatchesItsRow.nop
  | validate => exact Laws.MatchesItsRow.validate
  | clrerr => exact Laws.MatchesItsRow.clrerr
  | tmdec word => exact Laws.MatchesItsRow.tmdec word
  | tmfetch mt ent => exact Laws.MatchesItsRow.tmfetch mt ent
  | pixidx tile row col => exact Laws.MatchesItsRow.pixidx tile row col
  | palres sel idx => exact Laws.MatchesItsRow.palres sel idx
  | mtbuild mt => exact Laws.MatchesItsRow.mtbuild mt
  | raster => exact Laws.MatchesItsRow.raster

/-- Settles O1: the word matches the command's row, and the fields that row reads are the operands. -/
theorem decodeInvertsEncode : Obligations.DecodeInvertsEncode := by
  intro i h
  obtain ⟨r, hr, hm⟩ := matchesItsRow i h
  exact (decode_eq_ok_iff_row _ i).2 ⟨r, List.mem_of_getElem? hr, hm, (operands_encode i h r hr).symm⟩

/-- Settles O2: the command is its row's with the word's fields, and those are all of the word below OPC. -/
theorem encodeInvertsDecode : Obligations.EncodeInvertsDecode := by
  intro w i h
  obtain ⟨r, hr, hm, rfl⟩ := (decode_eq_ok_iff_row w i).1 h
  exact row_operands w r hr hm

/-- Settles O5: each word matches its row, and the fields are read off. -/
theorem writtenOutWordsDecode : Obligations.WrittenOutWordsDecode :=
  ⟨rfl, rfl, rfl, rfl, rfl, rfl, rfl, rfl, rfl⟩

end Sys2Proof
end

section
/-! The assembler (30_encoding.md R113). -/
namespace Sys2Proof.Machine

/-- A parsed command's operands are in their ranges: the range check is the last thing `parseLine` does. -/
theorem wf_of_parseLine (line : List Char) (i : Instr) (h : parseLine line = .ok (some i)) : i.wf = true := by
  rw [parseLine] at h
  split at h
  · cases h
  · split at h
    · cases h
    · split at h
      · cases h
      · split at h
        · cases h; assumption
        · cases h

theorem assembleLine_eq_ok_some (line : List Char) (w : Word) (h : assembleLine line = .ok (some w)) :
    ∃ i, parseLine line = .ok (some i) ∧ encode i = w := by
  rw [assembleLine] at h
  split at h
  · rename_i parsed hparse
    obtain ⟨i, rfl, hw⟩ := Option.map_eq_some_iff.1 (Except.ok.inj h)
    exact ⟨i, hparse, hw⟩
  · cases h

/-- Settles O6: the word is the encoding of a parsed command, whose operands are in range, so it decodes to it (O1). -/
theorem assembledLinesDecode : Obligations.AssembledLinesDecode := by
  intro line w h
  obtain ⟨i, hparse, rfl⟩ := assembleLine_eq_ok_some line w h
  have hwf := wf_of_parseLine line i hparse
  exact ⟨i, hparse, hwf, decodeInvertsEncode i hwf⟩

end Sys2Proof.Machine
end

section
/-! The core's move on the word in the latch: a command's, or the abort of an illegal word (60_exceptions.md R303, R315). -/
namespace Sys2Proof.Machine

theorem step_unscheduled (s : State) (h : s.sched = []) : step s = runMove s := by
  rw [step, nextMove, h]

theorem withLatched_command (f : Instr → State → Result) (s : State) (w : Word) (i : Instr) (hl : s.latch = some w)
    (hw : decode w = .ok i) : withLatched f s = f i s := by
  simp only [withLatched, hl, hw]

theorem withLatched_illegal (f : Instr → State → Result) (s : State) (w : Word) (hl : s.latch = some w)
    (hw : ¬ ∃ i, decode w = .ok i) : withLatched f s = .next (illegalStep s) := by
  cases hd : decode w with
  | ok i => exact absurd ⟨i, hd⟩ hw
  | error e => simp only [withLatched, hl, hd]

/-- R112: what matches no row has no assigned OPC or has a reserved bit set. -/
theorem illegalEncoding_iff (w : Word) : illegalEncoding w ↔ ¬ ∃ i, decode w = .ok i := by
  rw [decode_isOk_iff_row, matches_row_iff, illegalEncoding]
  generalize field w 31 24 = opc
  by_cases hopc : opc ∈ [0x00, 0x01, 0x02, 0x10, 0x11, 0x20, 0x30, 0x40, 0x50]
  · simp only [List.mem_cons, List.not_mem_nil, or_false] at hopc
    obtain rfl | rfl | rfl | rfl | rfl | rfl | rfl | rfl | rfl := hopc <;> simp
  · simp only [List.mem_cons, List.not_mem_nil, or_false, not_or] at hopc
    simp [hopc]

/-- Settles O4: an illegal word matches no row, so the run of the latched word is the abort of R315. -/
theorem illegalEncodingsAbort : Obligations.IllegalEncodingsAbort := by
  refine ⟨illegalEncoding_iff, fun s w hill hl hs => ?_⟩
  rw [step_unscheduled s hs]
  exact withLatched_illegal exec s w hl ((illegalEncoding_iff w).1 hill)

end Sys2Proof.Machine
end

section
/-! The host's WAIT loop (30_encoding.md R114): a poll as a step of the machine, and the run between two polls. -/
namespace Sys2Proof.Machine

theorem step_wait_idle (s : State) (gaps : List Nat) (rest : List Move) (hb : s.status.busy = false)
    (h : s.sched = .wait gaps :: rest) :
    step s = .next { s with sched := rest, replies := .word s.status.toWord :: s.replies } := by
  rw [step_move s _ rest h, move, waitMove_idle gaps { s with sched := rest } hb]
  rfl

theorem step_wait_busy (s : State) (gaps : List Nat) (rest : List Move) (hb : s.status.busy = true)
    (h : s.sched = .wait gaps :: rest) :
    step s = .next { s with sched := nextPoll gaps ++ rest, replies := .word s.status.toWord :: s.replies } := by
  rw [step_move s _ rest h, move, waitMove_busy gaps { s with sched := rest } hb]
  rfl

theorem step_run_command (s : State) (w : Word) (i : Instr) (rest : List Move) (h : s.sched = .run :: rest)
    (hl : s.latch = some w) (hw : decode w = .ok i) : step s = exec i { s with sched := rest } := by
  rw [step_move s .run rest h]
  exact withLatched_command exec { s with sched := rest } w i hl hw

/-- A poll with no gap listed: the loop ends or the core runs before the next one. -/
theorem step_wait_nil (s : State) (rest : List Move) (h : s.sched = .wait [] :: rest) :
    step s = .next { s with
      sched := if s.status.busy then .run :: .wait [] :: rest else rest
      replies := .word s.status.toWord :: s.replies } := by
  cases hb : s.status.busy with
  | false => exact step_wait_idle s [] rest hb h
  | true => exact step_wait_busy s [] rest hb h

/-- Settles O59: one poll by BUSY; and where no gap is listed a poll, the core's run, which leaves the schedule alone, and
the next poll. -/
theorem waitPollsUntilBusyIsZero : Obligations.WaitPollsUntilBusyIsZero := by
  refine ⟨step_wait_idle, fun s n gaps rest hb hs => ?_, fun s t w i rest hb hl hw hs hexec => ?_⟩
  · rw [step_wait_busy s _ rest hb hs, nextPoll, List.append_assoc, List.singleton_append]
  · have hrun := step_run_command
      { s with sched := .run :: .wait [] :: rest, replies := .word s.status.toWord :: s.replies } w i _ rfl hl hw
    obtain ⟨-, -, -, -, hsched, -⟩ := exec_sameOutside i _ t hexec
    exact (core_run_next 2 _ _ (step_wait_busy s [] rest hb hs)).trans <|
      (core_run_next 1 _ t (hrun.trans hexec)).trans <| core_run_next 0 t _ (step_wait_nil t rest hsched)

end Sys2Proof.Machine
end

section
/-! VALIDATE, NOP and CLRERR (40_control.md): the format of a size, the state each command ends in, and their frame. -/
namespace Sys2Proof.Machine

/-! ### The format of a size -/

/-- R8: the formats' sizes are pairwise distinct. -/
theorem Build.formats_sizes_nodup (c : Build) : (c.val.formats.map Format.size).Nodup := by
  have h := c.property
  simp only [Params.wf, Bool.and_eq_true, decide_eq_true_eq] at h
  obtain ⟨⟨⟨⟨⟨⟨-, -⟩, hnodup⟩, -⟩, -⟩, -⟩, -⟩ := h
  exact hnodup

/-- Two formats of one size are the same format. -/
theorem Build.format_number_unique (c : Build) {j k : Nat} {f g : Format} (hj : c.val.formats[j]? = some f)
    (hk : c.val.formats[k]? = some g) (hsize : f.size = g.size) : j = k := by
  obtain ⟨hlen, -⟩ := List.getElem?_eq_some_iff.1 hj
  refine (List.getElem?_inj (by rwa [List.length_map]) (Build.formats_sizes_nodup c)).1 ?_
  rw [List.getElem?_map, List.getElem?_map, hj, hk, Option.map_some, Option.map_some, hsize]

/-- R141: no format is selected where and only where none has the size. -/
theorem matchFormat_eq_none_iff (c : Params) (size : Nat) :
    matchFormat c size = none ↔ ∀ f ∈ c.formats, f.size ≠ size := by
  simp [matchFormat, List.findIdx?_eq_none_iff]

/-- R141: the format selected is the one of the size. -/
theorem matchFormat_eq_some (c : Build) (size k : Nat) (f : Format) (hf : c.val.formats[k]? = some f)
    (hsize : f.size = size) : matchFormat c.val size = some k := by
  cases hm : matchFormat c.val size with
  | none => exact absurd hsize ((matchFormat_eq_none_iff c.val size).1 hm f (List.mem_of_getElem? hf))
  | some j =>
    obtain ⟨-, g, hg, hgsize⟩ := matchFormat_some c.val size j hm
    rw [Build.format_number_unique c hg hf (hgsize.trans hsize.symm)]

/-! ### The state each command ends in -/

theorem exec_validate_of_some (s : State) (k : Nat) (hm : matchFormat s.cfg.val s.snapSize.toNat = some k) :
    exec .validate s = .next { s with
      latch := none, pos := .start, fmtIdx := BitVec.ofNat 32 k
      status := { s.status with busy := false, done := true, valid := true } } :=
  exec_last .validate s _ (by rw [action, actValidate, hm]; rfl)

/-- R142, R311: InvalidSize carries no information, so ERR_ADDR is 0. -/
theorem exec_validate_of_none (s : State) (hm : matchFormat s.cfg.val s.snapSize.toNat = none) :
    exec .validate s = .next { s with
      latch := none, pos := .start, errAddr := 0#32
      status := { s.status with busy := false, err := true, errCode := 1#4, valid := false } } :=
  exec_last .validate s _ (by rw [action, actValidate, hm]; rfl)

/-- Settles O26: the format of SNAP_SIZE is the only one of its size, so it is the one VALIDATE finds. -/
theorem validateSelectsTheFormatOrAborts : Obligations.ValidateSelectsTheFormatOrAborts :=
  ⟨fun s k f hf hsize => exec_validate_of_some s k (matchFormat_eq_some s.cfg _ k f hf hsize),
    fun s hnone => exec_validate_of_none s ((matchFormat_eq_none_iff _ _).2 hnone)⟩

/-- Settles O25: NOP's only action is its completion step. -/
theorem nopCompletes : Obligations.NopCompletes :=
  fun s => exec_last .nop s _ rfl

/-- Settles O27: CLRERR's only action is its completion step, which makes the two clears. -/
theorem clrerrCompletes : Obligations.ClrerrCompletes :=
  fun s => exec_last .clrerr s _ rfl

/-! ### What they leave unchanged -/

/-- Every control command writes the latch, the position, FMT_IDX, ERR_ADDR and STATUS only, and of these what its own rule
names. -/
theorem exec_control (s : State) (i : Instr) (hi : i = .nop ∨ i = .validate ∨ i = .clrerr) :
    ∃ (fmt addr : Word) (f : Status),
      exec i s = .next { s with latch := none, pos := .start, fmtIdx := fmt, errAddr := addr, status := f } ∧
      f.frameValid = s.status.frameValid ∧
      (i ≠ .validate → fmt = s.fmtIdx ∧ addr = s.errAddr ∧ f.valid = s.status.valid ∧ f.err = s.status.err ∧
        f.errCode = s.status.errCode) ∧
      (i ≠ .clrerr → f.cmdOvf = s.status.cmdOvf ∧ f.wlock = s.status.wlock) := by
  obtain rfl | rfl | rfl := hi
  · exact ⟨_, _, _, nopCompletes s, rfl, fun _ => ⟨rfl, rfl, rfl, rfl, rfl⟩, fun _ => ⟨rfl, rfl⟩⟩
  · cases hm : matchFormat s.cfg.val s.snapSize.toNat with
    | none => exact ⟨_, _, _, exec_validate_of_none s hm, rfl, fun h => absurd rfl h, fun _ => ⟨rfl, rfl⟩⟩
    | some k => exact ⟨_, _, _, exec_validate_of_some s k hm, rfl, fun h => absurd rfl h, fun _ => ⟨rfl, rfl⟩⟩
  · exact ⟨_, _, _, clrerrCompletes s, rfl, fun _ => ⟨rfl, rfl, rfl, rfl, rfl⟩, fun h => absurd rfl h⟩

/-- Settles O44: what `exec_control` does not list is as before, and each command's own rule says the rest. -/
theorem controlCommandsFrame : Obligations.ControlCommandsFrame := by
  intro s t i hi h
  obtain ⟨fmt, addr, f, hexec, hframeValid, hregisters, hsticky⟩ := exec_control s i hi
  obtain rfl := Host.Outcome.next.inj (hexec.symm.trans h)
  exact ⟨rfl, rfl, rfl, rfl, rfl, fun _ => ⟨rfl, rfl⟩, rfl, rfl, rfl, rfl, hframeValid, hregisters, hsticky⟩

end Sys2Proof.Machine
end

section
/-! The fields of a tilemap entry as arithmetic on the word (41_tilemap_entry.md R160, R161). -/
namespace Sys2Proof.Machine

/-- A one-bit mask reads the digit of its weight. -/
theorem toNat_and_bit_ne_zero (w k : Nat) : (decide (w &&& 2 ^ k ≠ 0)).toNat = w / 2 ^ k % 2 := by
  rw [Nat.and_two_pow, ← Nat.toNat_testBit]
  cases w.testBit k <;> simp

theorem decodeEntry_tile (w : Nat) : (decodeEntry w).tile = w % 1024 :=
  Nat.and_two_pow_sub_one_eq_mod w 10

theorem decodeEntry_pal (w : Nat) : (decodeEntry w).pal = w / 1024 % 8 := by
  calc (w &&& 0x1C00) >>> 10 = (w >>> 10) &&& (2 ^ 3 - 1) := Nat.shiftRight_and_distrib
    _ = w / 1024 % 8 := by rw [Nat.and_two_pow_sub_one_eq_mod, Nat.shiftRight_eq_div_pow]

theorem decodeEntry_prio (w : Nat) : (decodeEntry w).prio.toNat = w / 8192 % 2 := toNat_and_bit_ne_zero w 13

theorem decodeEntry_hflip (w : Nat) : (decodeEntry w).hflip.toNat = w / 16384 % 2 := toNat_and_bit_ne_zero w 14

theorem decodeEntry_vflip (w : Nat) : (decodeEntry w).vflip.toNat = w / 32768 % 2 := toNat_and_bit_ne_zero w 15

/-- Settles O53: the fields are the word's digits, in adjoining ranges that end with bit 15. -/
theorem entryFieldsPartitionTheWord : Obligations.EntryFieldsPartitionTheWord := by
  intro w hw
  refine ⟨decodeEntry_tile_lt w, decodeEntry_pal_lt w, ?_⟩
  rw [decodeEntry_tile, decodeEntry_pal, decodeEntry_prio, decodeEntry_hflip, decodeEntry_vflip]
  omega

/-- R162: each field goes back to the bits it came from. -/
theorem packEntry_decodeEntry (w : Nat) (hw : w < 2 ^ 16) : packEntry (decodeEntry w) = w := by
  obtain ⟨-, -, hsum⟩ := entryFieldsPartitionTheWord w hw
  simp only [packEntry, Nat.shiftLeft_eq]
  omega

/-- R162, R164: RES_ENTRY takes the word itself. -/
theorem State.withEntry_eq (w : Nat) (s : State) (hw : w < 2 ^ 16) :
    s.withEntry w = { s with resEntry := BitVec.ofNat 32 w } := by
  rw [State.withEntry, packEntry_decodeEntry w hw]

end Sys2Proof.Machine
end

section
/-! The completions of TMDEC and TMFETCH (41_tilemap_entry.md R162 to R164). -/
namespace Sys2Proof.Machine

/-- Settles O28: TMDEC's only action is its completion, and packing undoes the decoding of the operand. -/
theorem tmdecCompletes : Obligations.TmdecCompletes := by
  intro s word hword
  refine exec_last (.tmdec word) s _ ?_
  rw [action, actTmdec, State.withEntry_eq word s hword]
  rfl

/-- R37: BASE is the base of the format FMT_IDX names. -/
theorem State.base_of_format (s : State) (f : Format) (hf : s.cfg.val.formats[s.fmtIdx.toNat]? = some f) :
    s.base = f.base := by
  rw [State.base, hf]

theorem State.tilemapWord_lt (s : State) (i j : Nat) : s.tilemapWord i j < 2 ^ 16 :=
  State.fieldWord_tilemap s i j ▸ fieldWord_lt _ 0

/-- R163, R164: TMFETCH of a readable word, in terms of the word the snapshot holds. -/
theorem exec_tmfetch (s : State) (mt ent : Nat) (hp : s.pos = .start) (hv : s.status.valid = true)
    (hr : s.Readable (s.tilemapOffset mt ent) 2) :
    exec (.tmfetch mt ent) s = .next { s with
      latch := none, pos := .start, resEntry := BitVec.ofNat 32 (s.tilemapWord mt ent)
      status := { s.status with busy := false, done := true } } := by
  refine exec_read_last (.tmfetch mt ent) s _ _ 2 .got (singleRead_start _ _ _ s hp hv) hr ?_
  rw [action, actTmfetch, singleRead_got _ _ _ _ _ rfl, State.fieldWord_tilemap,
    State.withEntry_eq _ _ (State.tilemapWord_lt s mt ent)]
  rfl

/-- Settles O29: the word at the offset the statement writes out is the tilemap word of the position. -/
theorem tmfetchCompletes : Obligations.TmfetchCompletes := by
  intro s f mt ent off hp hv hf hoff hr
  have hoffset : s.tilemapOffset mt ent = off := by
    rw [State.tilemapOffset, State.base_of_format s f hf, hoff]
  rw [exec_tmfetch s mt ent hp hv (by rwa [hoffset]), State.tilemapWord, hoffset, word16]

end Sys2Proof.Machine
end

section
/-! How a command without FrameWrites ends (60_exceptions.md R304, R305), and what the inspection commands leave unchanged. -/
namespace Sys2Proof.Machine

/-! ### The end of a command without FrameWrites -/

theorem action_ne_write (i : Instr) (s : State) (hi : i.frame = false) (p : Nat) (c : RGB) (next : Pos) :
    action i s ≠ .write p c next := by
  cases i with
  | nop | validate | clrerr | tmdec => nofun
  | tmfetch | pixidx => exact singleRead_no_write _ _ _ s p c next
  | palres sel idx =>
    rw [action, actPalres]
    split
    · nofun
    · exact singleRead_no_write _ _ _ s p c next
  | mtbuild | raster => cases hi

/-- R71: a command without FrameWrites has one SnapRead; the action after its bytes is the last. -/
theorem action_last_of_bytes (i : Instr) (s : State) (off n : Nat) (next : List Byte → Pos) (hi : i.frame = false)
    (h : action i s = .read off n next) (bytes : List Byte) :
    ∃ u, action i { s with pos := next bytes } = .last u := by
  cases i with
  | nop | validate | clrerr | tmdec => cases h
  | tmfetch | pixidx =>
    obtain ⟨-, -, -, rfl⟩ := singleRead_read _ _ _ s off n next h
    exact ⟨_, rfl⟩
  | palres sel idx =>
    have hidx : idx ≠ 0 := by rintro rfl; cases h
    obtain ⟨-, -, -, rfl⟩ := singleRead_read _ _ _ s off n next ((if_neg hidx).symm.trans h)
    exact ⟨_, (if_neg hidx).trans (singleRead_got _ _ _ _ bytes rfl)⟩
  | mtbuild | raster => cases hi

/-- A command that takes one step to a position whose action is its last. -/
theorem exec_step_last (i : Instr) (s t : State) (p : Pos) (hstop : (action i s).stops s = false)
    (hstep : perform (action i s) s = .next { s with pos := p }) (hlast : action i { s with pos := p } = .last t) :
    exec i s = .next t := by
  rw [exec_eq_run, commandFuel_eq, runCommand_go (action i) _ s _ hstep hstop, runCommand_last (action i) _ _ t hlast]

/-- A command without FrameWrites ends, and all it does before its last action is to move the sequencer position. -/
theorem exec_ends_with_last (i : Instr) (s t : State) (hi : i.frame = false) (h : exec i s = .next t) :
    ∃ p, action i { s with pos := p } = .last t := by
  cases ha : action i s with
  | last u =>
    obtain rfl := Host.Outcome.next.inj ((exec_last i s u ha).symm.trans h)
    exact ⟨s.pos, ha⟩
  | write p c next => exact absurd ha (action_ne_write i s hi p c next)
  | read off n next =>
    have hstep : ∃ p u, snapRead off n next s = .next { s with pos := p } ∧ action i { s with pos := p } = .last u := by
      rcases snapRead_cases s off n next with ⟨hfail, -⟩ | ⟨hfault, -⟩ | ⟨hread, -⟩
      · exact ⟨_, _, hfail, action_failed_of_read i s off n next ha .outOfRange off⟩
      · rw [exec_eq_run, commandFuel_eq, runCommand_fault (action i) _ s _ (by rw [ha]; exact hfault)] at h
        cases h
      · obtain ⟨u, hlast⟩ := action_last_of_bytes i s off n next hi ha (s.snapBytes off n)
        exact ⟨_, u, hread, hlast⟩
    obtain ⟨p, u, hp, hlast⟩ := hstep
    have hexec := exec_step_last i s u p (by rw [ha]; rfl) (by rw [ha]; exact hp) hlast
    obtain rfl := Host.Outcome.next.inj (hexec.symm.trans h)
    exact ⟨p, hlast⟩

/-! ### The inspection commands -/

/-- The last action of a single-read command is its completion with the result, or an abort. -/
theorem singleRead_last_cases (off n : Nat) (result : List Byte → State) (s t : State)
    (h : singleRead off n result s = .last t) :
    (∃ bytes, t = (result bytes).complete) ∨ ∃ e info, t = s.raise e info := by
  rw [singleRead] at h
  split at h
  · cases h; exact .inl ⟨_, rfl⟩
  · cases h; exact .inr ⟨_, _, rfl⟩
  · split at h
    · cases h
    · cases h; exact .inr ⟨_, _, rfl⟩

/-- The values of the three result registers that an inspection command can leave: a new one only in its own (R162, R164,
R186, R206). -/
def State.OwnResult (s : State) (i : Instr) (entry index rgb : Word) : Prop :=
  ((∀ word, i ≠ .tmdec word) → (∀ mt ent, i ≠ .tmfetch mt ent) → entry = s.resEntry) ∧
    ((∀ tile row col, i ≠ .pixidx tile row col) → index = s.resIndex) ∧
    ((∀ sel idx, i ≠ .palres sel idx) → rgb = s.resRgb)

/-- An inspection command ends in an abort, or in a completion that writes its own result register at most. -/
theorem action_last_inspection (i : Instr) (s t : State) (hi : i.frame = false) (hnop : i ≠ .nop)
    (hvalidate : i ≠ .validate) (hclrerr : i ≠ .clrerr) (h : action i s = .last t) :
    (∃ e info, t = s.raise e info) ∨
    ∃ entry index rgb, t = ({ s with resEntry := entry, resIndex := index, resRgb := rgb } : State).complete ∧
      s.OwnResult i entry index rgb := by
  cases i with
  | nop => exact absurd rfl hnop
  | validate => exact absurd rfl hvalidate
  | clrerr => exact absurd rfl hclrerr
  | mtbuild | raster => cases hi
  | tmdec word =>
    cases h
    exact .inr ⟨_, _, _, rfl, fun h _ => absurd rfl (h word), fun _ => rfl, fun _ => rfl⟩
  | tmfetch mt ent =>
    rcases singleRead_last_cases _ _ _ s t h with ⟨bytes, rfl⟩ | habort
    · exact .inr ⟨_, _, _, rfl, fun _ h => absurd rfl (h mt ent), fun _ => rfl, fun _ => rfl⟩
    · exact .inl habort
  | pixidx tile row col =>
    rcases singleRead_last_cases _ _ _ s t h with ⟨bytes, rfl⟩ | habort
    · exact .inr ⟨_, _, _, rfl, fun _ _ => rfl, fun h => absurd rfl (h tile row col), fun _ => rfl⟩
    · exact .inl habort
  | palres sel idx =>
    have hrgb : ∀ c, s.OwnResult (.palres sel idx) s.resEntry s.resIndex (s.withRgb c).resRgb :=
      fun _ => ⟨fun _ _ => rfl, fun _ => rfl, fun h => absurd rfl (h sel idx)⟩
    rw [action, actPalres] at h
    split at h
    · cases h
      split
      · exact .inr ⟨_, _, _, rfl, hrgb sentinel⟩
      · exact .inl ⟨_, _, rfl⟩
    · rcases singleRead_last_cases _ _ _ s t h with ⟨pal, rfl⟩ | habort
      · exact .inr ⟨_, _, _, rfl, hrgb (resolve pal sel idx)⟩
      · exact .inl habort

/-- Settles O45: an abort writes the error registers only, a completion one result register and no error register. -/
theorem inspectionCommandsFrame : Obligations.InspectionCommandsFrame := by
  intro s t i hi hnop hvalidate hclrerr h
  obtain ⟨p, hlast⟩ := exec_ends_with_last i s t hi h
  rcases action_last_inspection i _ t hi hnop hvalidate hclrerr hlast with
    ⟨e, info, rfl⟩ | ⟨entry, index, rgb, rfl, hentry, hindex, hrgb⟩
  · exact ⟨rfl, rfl, rfl, fun _ => ⟨rfl, rfl⟩, rfl, rfl, rfl, rfl, rfl, rfl, rfl, rfl, fun _ _ => rfl, fun _ => rfl,
      fun _ => rfl, fun _ _ => ⟨rfl, rfl, rfl⟩, fun _ herr => by cases herr⟩
  · exact ⟨rfl, rfl, rfl, fun _ => ⟨rfl, rfl⟩, rfl, rfl, rfl, rfl, rfl, rfl, rfl, rfl, hentry, hindex, hrgb,
      fun hs ht => absurd (hs.symm.trans ht) (by decide), fun _ _ => ⟨rfl, rfl⟩⟩

end Sys2Proof.Machine
end

section
/-! The row of a plane in the stored record, and PIXIDX's completion (42_plane_decoder.md R180 to R186). -/
namespace Sys2Proof.Machine

/-- R181 in stored order: normalization exchanges the two bytes of a row's pair, so the even plane is the pair's first stored
byte, or its second where `swapped`. -/
theorem plane_eq_byteAt (swapped : Bool) (s : List Byte) (p r : Nat) (h : 16 * (p / 2) + 2 * r + 1 < s.length) :
    plane swapped s p r = byteAt s (16 * (p / 2) + 2 * r + if (p % 2 == 0) == swapped then 1 else 0) := by
  have hpair : 16 * (p / 2) + 2 * r = 2 * (8 * (p / 2) + r) := by omega
  rw [hpair] at h
  rw [plane, planeOffset, hpair]
  split
  · exact byteAt_bswap_even s _ h
  · exact byteAt_bswap_odd s _ h

/-- R182 of a record that a SnapRead gave: a plane's bit is the column's bit of the snapshot byte that holds the row. -/
theorem State.planeBit_record (s : State) (swapped : Bool) (off p row col : Nat) (hp : p < 4) (hrow : row < 8) :
    planeBit swapped (s.snapBytes off 32) p row col =
      columnBit (s.snapByte (off + 16 * (p / 2) + 2 * row + if (p % 2 == 0) == swapped then 1 else 0)) col := by
  have hin : 16 * (p / 2) + 2 * row + 1 < 32 := by omega
  have hbyte : (16 * (p / 2) + 2 * row + if (p % 2 == 0) == swapped then 1 else 0) < 32 := by split <;> omega
  rw [planeBit, plane_eq_byteAt swapped _ p row (by rwa [State.snapBytes_length]), byteAt_snapBytes s off 32 _ hbyte,
    Nat.shiftRight_eq_div_pow, Nat.and_one_is_mod, columnBit, ← Nat.add_assoc, ← Nat.add_assoc]

/-- R183 of a record that a SnapRead gave, over the row's four stored bytes; the other pair order exchanges the planes of
each pair. -/
theorem State.pixelIndex_record (s : State) (swapped : Bool) (off row col : Nat) (hrow : row < 8) :
    pixelIndex swapped (s.snapBytes off 32) row col =
      if swapped then
        columnBit (s.snapByte (off + 2 * row + 1)) col + 2 * columnBit (s.snapByte (off + 2 * row)) col +
          4 * columnBit (s.snapByte (off + 17 + 2 * row)) col + 8 * columnBit (s.snapByte (off + 16 + 2 * row)) col
      else
        columnBit (s.snapByte (off + 2 * row)) col + 2 * columnBit (s.snapByte (off + 2 * row + 1)) col +
          4 * columnBit (s.snapByte (off + 16 + 2 * row)) col + 8 * columnBit (s.snapByte (off + 17 + 2 * row)) col := by
  have h17 : off + 16 + 2 * row + 1 = off + 17 + 2 * row := by omega
  rw [pixelIndex, s.planeBit_record swapped off 0 row col (by decide) hrow,
    s.planeBit_record swapped off 1 row col (by decide) hrow, s.planeBit_record swapped off 2 row col (by decide) hrow,
    s.planeBit_record swapped off 3 row col (by decide) hrow]
  cases swapped <;> simp [h17]

/-- R186: PIXIDX of a readable record, in terms of the pixel's index in it. -/
theorem exec_pixidx (s : State) (tile row col : Nat) (hp : s.pos = .start) (hv : s.status.valid = true)
    (hr : s.Readable (s.recordOffset tile) 32) :
    exec (.pixidx tile row col) s = .next { s with
      latch := none, pos := .start
      resIndex := BitVec.ofNat 32
        (pixelIndex s.cfg.val.planePairSwapped (s.snapBytes (s.recordOffset tile) 32) row col)
      status := { s.status with busy := false, done := true } } :=
  exec_read_last (.pixidx tile row col) s _ _ 32 .got (singleRead_start _ _ _ s hp hv) hr rfl

/-- Settles O30: the record stands at the offset the statement writes out, and `State.pixelIndex_record` reads the pixel's
index off its stored bytes. -/
theorem pixidxCompletes : Obligations.PixidxCompletes := by
  intro s f tile row col off hrow _ hp hv hf hoff hr
  have hoffset : s.recordOffset tile = off := by
    rw [State.recordOffset, State.base_of_format s f hf, hoff]
  refine ⟨_, _, _, _, rfl, rfl, rfl, rfl, ?_⟩
  rw [exec_pixidx s tile row col hp hv (by rwa [hoffset]), hoffset, s.pixelIndex_record _ off row col hrow]

end Sys2Proof.Machine
end

section
/-! The colour of a palette entry: channel scaling, the packed value's three channels, and the sentinel
(43_palette_lookup.md R202 to R209). -/
namespace Sys2Proof.Machine

/-! ### Channel scaling -/

/-- R209: one step of a channel adds 255 / 31, which is at least 1, so that the quotients differ. -/
theorem scale_lt_scale (v v' : Nat) (h : v < v') : scale v < scale v' := by
  rw [scale, scale]
  omega

/-- Settles O55: strictly increasing by `scale_lt_scale`; the two ends are computed. -/
theorem channelScaling : Obligations.ChannelScaling :=
  ⟨fun v v' h _ => scale_lt_scale v v' h, rfl, rfl⟩

/-- R207: scaling leaves out the value 1, as `scale 0 = 0` and `scale 1 = 8`. -/
theorem scale_ne_one (v : Nat) : scale v ≠ 1 := by
  rw [scale]
  omega

theorem toNat_ofNat_scale (v : Nat) (h : v < 32) : (BitVec.ofNat 8 (scale v)).toNat = scale v :=
  Nat.mod_eq_of_lt (scale_lt v h)

/-! ### The channels of a packed colour -/

/-- R203, R204: the channels are the packed value's three base-32 digits, scaled. -/
theorem unpackColour_eq (v : Nat) :
    unpackColour v = ⟨BitVec.ofNat 8 (scale (v % 32)), BitVec.ofNat 8 (scale (v / 32 % 32)),
      BitVec.ofNat 8 (scale (v / 1024 % 32))⟩ := by
  simp only [unpackColour, and_31, Nat.shiftRight_eq_div_pow, Nat.reducePow]

/-- R206: RES_RGB holds the scaled channels whole, R lowest. -/
theorem packRgb_unpackColour (v : Nat) : packRgb (unpackColour v) =
    scale (v % 32) + 2 ^ 8 * scale (v / 32 % 32) + 2 ^ 16 * scale (v / 1024 % 32) := by
  have hdigit (n : Nat) : n % 32 < 32 := Nat.mod_lt n (by decide)
  rw [unpackColour_eq, packRgb, toNat_ofNat_scale _ (hdigit _), toNat_ofNat_scale _ (hdigit _),
    toNat_ofNat_scale _ (hdigit _), Nat.shiftLeft_eq, Nat.shiftLeft_eq, Nat.mul_comm _ (2 ^ 8), Nat.mul_comm _ (2 ^ 16)]

/-! ### The sentinel -/

theorem packRgb_sentinel : packRgb sentinel = 0x00010101 := rfl

theorem resolve_zero (pal : List Byte) (sel : Nat) : resolve pal sel 0 = sentinel := rfl

theorem resolve_of_ne_zero (pal : List Byte) (sel idx : Nat) (h : idx ≠ 0) :
    resolve pal sel idx = unpackColour (packed pal sel idx) := if_neg h

/-- R207: no unpacked colour is the sentinel, as its red channel is not 1. -/
theorem unpackColour_ne_sentinel (v : Nat) : unpackColour v ≠ sentinel := by
  intro h
  have hred : BitVec.ofNat 8 (scale (v % 32)) = 1#8 := by
    rw [unpackColour_eq] at h
    exact congrArg RGB.r h
  refine scale_ne_one (v % 32) ?_
  rw [← toNat_ofNat_scale (v % 32) (Nat.mod_lt v (by decide)), hred]
  rfl

/-- Settles O56: index 0 resolves to the sentinel, every other index to an unpacked colour, which never equals it. -/
theorem sentinelIsUnique : Obligations.SentinelIsUnique := by
  intro pal sel idx
  constructor
  · intro h
    by_contra hidx
    rw [resolve_of_ne_zero pal sel idx hidx] at h
    exact unpackColour_ne_sentinel _ h
  · rintro rfl
    exact resolve_zero pal sel

end Sys2Proof.Machine
end

section
/-! PALRES's completions (43_palette_lookup.md R200 to R206). -/
namespace Sys2Proof.Machine

/-- R206, R304: the completion that writes a colour to RES_RGB, field by field. -/
theorem State.complete_withRgb (c : RGB) (s : State) : (s.withRgb c).complete = { s with
    latch := none, pos := .start, resRgb := BitVec.ofNat 32 (packRgb c)
    status := { s.status with busy := false, done := true } } := by
  simp only [State.complete, State.withRgb, Status.complete]

/-- Settles O31: with VALID, PALRES of index 0 has its completion as its only action, at every position. -/
theorem palresSentinel : Obligations.PalresSentinel := by
  intro s sel hv
  refine exec_last (.palres sel 0) s _ ?_
  rw [action, actPalres, if_pos rfl, if_pos hv, State.complete_withRgb, packRgb_sentinel]

/-- R202 of a palette that a SnapRead gave: the packed colour is the little-endian word of its two stored bytes. -/
theorem State.packed_snapBytes (s : State) (off sel idx : Nat) (hsel : sel < 8) (hidx : idx < 16) :
    packed (s.snapBytes off 256) sel idx =
      word16 (s.snapByte (off + 2 * (16 * sel + idx))).toNat (s.snapByte (off + 2 * (16 * sel + idx) + 1)).toNat := by
  have hin : 2 * (16 * sel + idx) + 1 < 256 := by omega
  rw [packed, fieldWord_eq_word16 _ _ (by rwa [State.snapBytes_length]),
    byteAt_snapBytes s off 256 _ (Nat.lt_of_succ_lt hin), byteAt_snapBytes s off 256 _ hin, Nat.add_assoc off]

/-- R206: PALRES of a nonzero index with the palette readable, in terms of the colour the palette resolves it to. -/
theorem exec_palres (s : State) (sel idx : Nat) (hidx : idx ≠ 0) (hp : s.pos = .start) (hv : s.status.valid = true)
    (hr : s.Readable s.paletteOffset 256) :
    exec (.palres sel idx) s = .next { s with
      latch := none, pos := .start
      resRgb := BitVec.ofNat 32 (packRgb (resolve (s.snapBytes s.paletteOffset 256) sel idx))
      status := { s.status with busy := false, done := true } } := by
  refine exec_read_last (.palres sel idx) s _ _ 256 .got ?_ hr ?_
  · rw [action, actPalres, if_neg hidx, singleRead_start _ _ _ s hp hv]
  · rw [action, actPalres, if_neg hidx, singleRead_got _ _ _ _ _ rfl, State.complete_withRgb]

/-- Settles O32: the palette stands at the offset the statement writes out, and its entry's two stored bytes give the
channels by `packRgb_unpackColour`. -/
theorem palresCompletes : Obligations.PalresCompletes := by
  intro s f sel idx off packedColour hsel hidx hne hp hv hf hoff hr hcolour
  have hoffset : s.paletteOffset = off := by
    rw [State.paletteOffset, State.base_of_format s f hf, hoff]
  have hpacked : packed (s.snapBytes off 256) sel idx = packedColour := by
    rw [s.packed_snapBytes off sel idx hsel hidx, word16, hcolour]
  rw [exec_palres s sel idx hne hp hv (by rwa [hoffset]), hoffset, resolve_of_ne_zero _ _ _ hne, hpacked,
    packRgb_unpackColour, scale, scale, scale]

end Sys2Proof.Machine
end

section
/-! Placement: the sub-tiles of a metatile and the metatiles of the frame (44_metatile_combiner.md R230, R231, R234,
45_tileset_rasterizer.md R250), as positions with inverses. -/
namespace Sys2Proof.Machine

/-! ### Sub-tiles of a metatile -/

theorem entryOfPixel_lt (y x : Nat) (hy : y < 32) (hx : x < 32) : entryOfPixel y x < 16 := by
  rw [entryOfPixel]
  omega

/-- R230 undoes R231: the entry of a pixel is placed at the pixel's sub-tile row and column. -/
theorem subTilePosition_entryOfPixel (y x : Nat) (hx : x < 32) : subTilePosition (entryOfPixel y x) = (y / 8, x / 8) := by
  rw [subTilePosition, entryOfPixel, Prod.mk.injEq]
  omega

/-- R231 undoes R230: every pixel of sub-tile `j` comes from entry `j`. -/
theorem entryOfPixel_subTilePosition (j r c : Nat) (hr : r < 8) (hc : c < 8) :
    entryOfPixel (8 * (subTilePosition j).1 + r) (8 * (subTilePosition j).2 + c) = j := by
  simp only [entryOfPixel, subTilePosition]
  omega

/-- Settles O57: the placement of R230 and the entry of R231 undo each other. -/
theorem subTilePlacementIsABijection : Obligations.SubTilePlacementIsABijection := by
  refine ⟨fun y x hy hx => ⟨entryOfPixel_lt y x hy hx, ?_⟩, fun j r c _ hr hc => entryOfPixel_subTilePosition j r c hr hc⟩
  rw [subTilePosition_entryOfPixel y x hx]
  exact ⟨(Nat.div_add_mod y 8).symm, (Nat.div_add_mod x 8).symm⟩

/-! ### Metatiles of the frame -/

/-- R234: the frame row of pixel `(y, x)` of metatile `i`. -/
theorem frameIndex_div (i y x : Nat) (hx : x < 32) : frameIndex i y x / 512 = 32 * (metatilePosition i).1 + y := by
  simp only [frameIndex, metatilePosition]
  omega

/-- R234: its frame column. -/
theorem frameIndex_mod (i y x : Nat) (hx : x < 32) : frameIndex i y x % 512 = 32 * (metatilePosition i).2 + x := by
  simp only [frameIndex, metatilePosition]
  omega

theorem frameIndex_lt (i y x : Nat) (hi : i < 256) (hy : y < 32) (hx : x < 32) : frameIndex i y x < 262144 := by
  rw [frameIndex]
  omega

/-- R253: pixel number `n` of metatile `i` is RASTER's pixel number `1024 i + n`. -/
theorem rasterIndex_add (i n : Nat) (hn : n < 1024) : rasterIndex (1024 * i + n) = frameIndex i (n / 32) (n % 32) := by
  have hi : (1024 * i + n) / 1024 = i := by omega
  have hy : (1024 * i + n) % 1024 = n := by omega
  have hx : (1024 * i + n) % 32 = n % 32 := by omega
  rw [rasterIndex, hi, hy, hx]

/-- When RASTER writes frame index `p`: the metatile its row and column fall in, then the place in that metatile. -/
def rasterNumber (p : Nat) : Nat :=
  1024 * (16 * (p / 512 / 32) + p % 512 / 32) + (32 * (p / 512 % 32) + p % 512 % 32)

theorem rasterNumber_lt (p : Nat) (hp : p < 262144) : rasterNumber p < 262144 := by
  rw [rasterNumber]
  omega

theorem rasterIndex_lt (k : Nat) (hk : k < 262144) : rasterIndex k < 262144 :=
  frameIndex_lt _ _ _ (by omega) (by omega) (by omega)

theorem rasterNumber_rasterIndex (k : Nat) : rasterNumber (rasterIndex k) = k := by
  have hx : k % 32 < 32 := Nat.mod_lt k (by decide)
  rw [rasterNumber, rasterIndex, frameIndex_div _ _ _ hx, frameIndex_mod _ _ _ hx, metatilePosition]
  omega

theorem rasterIndex_rasterNumber (p : Nat) : rasterIndex (rasterNumber p) = p := by
  rw [rasterNumber, rasterIndex_add _ _ (by omega), frameIndex]
  omega

/-- Settles O58: `rasterNumber` is the inverse of the order RASTER writes in. -/
theorem rasterOrderCoversTheFrame : Obligations.RasterOrderCoversTheFrame := by
  refine ⟨fun p hp => ⟨rasterNumber p, rasterNumber_lt p hp, rasterIndex_rasterNumber p, fun k' _ hk' => ?_⟩,
    rasterIndex_lt, fun i y x _ _ hx => ⟨frameIndex_div i y x hx, frameIndex_mod i y x hx⟩⟩
  rw [← hk', rasterNumber_rasterIndex]

end Sys2Proof.Machine
end

section
/-! The runs of MTBUILD and RASTER from their start, phase by phase (44_metatile_combiner.md R236, 45_tileset_rasterizer.md
R253): the palette, a metatile's reads up to the first one that gives no bytes, and its FrameWrites up to pixel `n`. -/
namespace Sys2Proof.Machine

section

variable (first : Nat) (after : List Byte → Nat → Pos) (finish : State → State)

/-- R305: a failed memory event is followed by the abort. -/
theorem runCommand_failed (k : Nat) (s : State) (e : CmdError) (info : Nat) :
    runCommand (frameCommand first after finish) (k + 1) { s with pos := .failed e info } = .next (s.raise e info) :=
  runCommand_last _ k _ _ rfl

/-- R304: the last FrameWrite is followed by the completion. -/
theorem runCommand_emitted (k : Nat) (s : State) (hs : s.pos = .emitted) :
    runCommand (frameCommand first after finish) (k + 1) s = .next (finish s).complete :=
  runCommand_last _ k s _ (by simp only [frameCommand, hs])

/-- R232: the palette is read first. -/
theorem runCommand_readPalette (k : Nat) (s : State) (hp : s.pos = .start) (hv : s.status.valid = true)
    (hpal : s.Readable s.paletteOffset 256) :
    runCommand (frameCommand first after finish) (k + 1) s =
      runCommand (frameCommand first after finish) k
        { s with pos := .reading (s.snapBytes s.paletteOffset 256) first [] } :=
  runCommand_read _ k s _ _ _ (frameCommand_start first after finish s hp hv) hpal

/-- The 32 reads of a metatile. -/
theorem runCommand_readMetatile (k : Nat) (s : State) (pal : List Byte) (mt : Nat) (hs : s.pos = .reading pal mt [])
    (hread : s.MetatileReadable mt) :
    runCommand (frameCommand first after finish) (k + 32) s =
      runCommand (frameCommand first after finish) k
        { s with pos := .writing pal mt ((List.range 16).map (s.cell mt)) 0 } :=
  runCommand_readCells first after finish k 15 s pal mt (by decide) hs hread

/-! ### The action at each position of the command -/

theorem frameCommand_reading (s : State) (pal : List Byte) (mt : Nat) (cells : List Cell)
    (hs : s.pos = .reading pal mt cells) :
    frameCommand first after finish s =
      .read (s.tilemapOffset mt cells.length) 2 (fun bytes => .record pal mt cells (fieldWord bytes 0)) := by
  simp only [frameCommand, hs]

theorem frameCommand_record (s : State) (pal : List Byte) (mt : Nat) (cells : List Cell) (word : Nat)
    (hs : s.pos = .record pal mt cells word) :
    frameCommand first after finish s =
      .read (s.recordOffset (decodeEntry word).tile) 32
        (fun bytes => afterRecord pal mt (cells ++ [⟨word, bytes⟩])) := by
  simp only [frameCommand, hs]

theorem frameCommand_writing (s : State) (pal : List Byte) (mt : Nat) (cells : List Cell) (n : Nat)
    (hs : s.pos = .writing pal mt cells n) :
    frameCommand first after finish s =
      .write (frameIndex mt (n / 32) (n % 32))
        (metatilePixel s.cfg.val.planePairSwapped pal cells (n / 32) (n % 32))
        (afterPixel (after pal mt) pal mt cells n) := by
  simp only [frameCommand, hs]

theorem State.metatilePixels_succ (s : State) (i n : Nat) :
    (s.metatilePixels i (n + 1)).reverse =
      s.framePixel (frameIndex i (n / 32) (n % 32)) :: (s.metatilePixels i n).reverse := by
  simp [State.metatilePixels, List.range_succ]

/-! ### Up to a read that gives no bytes -/

/-- Cell `j` is the first of metatile `i` one of whose reads gives no bytes: the read at `off`, of whose length `Bad`
holds, is its tilemap word or its record. -/
def State.FirstBadRead (s : State) (i j off : Nat) (Bad : Nat → Prop) : Prop :=
  j < 16 ∧
  (∀ j', j' < j → s.Readable (s.tilemapOffset i j') 2 ∧
    s.Readable (s.recordOffset (s.tilemapWord i j' &&& 0x03FF)) 32) ∧
  ((off = s.tilemapOffset i j ∧ Bad 2) ∨
    (s.Readable (s.tilemapOffset i j) 2 ∧ off = s.recordOffset (s.tilemapWord i j &&& 0x03FF) ∧ Bad 32))

theorem State.ReadFailsAt.firstBadRead {s : State} {i j off : Nat} (h : s.ReadFailsAt i j off) :
    s.FirstBadRead i j off fun n => s.snapSize.toNat < off + n := h

theorem State.ReadStopsAt.firstBadRead {s : State} {i j off : Nat} (h : s.ReadStopsAt i j off) :
    s.FirstBadRead i j off fun n => s.ReadsUnwritten off n := h

/-- The run from a metatile's first read comes to the bad read, in no more than 31 steps. -/
theorem runCommand_toBadRead (k : Nat) (s : State) (pal : List Byte) (mt j off : Nat) (Bad : Nat → Prop)
    (hs : s.pos = .reading pal mt []) (h : s.FirstBadRead mt j off Bad) :
    ∃ m p n next, Bad n ∧ frameCommand first after finish { s with pos := p } = .read off n next ∧
      runCommand (frameCommand first after finish) (k + 33) s =
        runCommand (frameCommand first after finish) (m + 2) { s with pos := p } := by
  obtain ⟨hj, hbefore, hbad⟩ := h
  have hlen : ((List.range j).map (s.cell mt)).length = j := by rw [List.length_map, List.length_range]
  have hreading := frameCommand_reading first after finish
    { s with pos := .reading pal mt ((List.range j).map (s.cell mt)) } pal mt _ rfl
  rw [hlen] at hreading
  rw [show k + 33 = (k + 33 - 2 * j) + 2 * j by omega,
    runCommand_readCellsTo first after finish _ j s pal mt hj hs hbefore]
  rcases hbad with ⟨rfl, hbad⟩ | ⟨hword, rfl, hbad⟩
  · exact ⟨k + 31 - 2 * j, _, 2, _, hbad, hreading, by congr 1; omega⟩
  · refine ⟨k + 30 - 2 * j, .record pal mt ((List.range j).map (s.cell mt)) (s.tilemapWord mt j), 32, _, hbad,
      frameCommand_record first after finish _ pal mt _ _ rfl, ?_⟩
    rw [show k + 33 - 2 * j = (k + 30 - 2 * j + 2) + 1 by omega, runCommand_read _ _ _ _ _ _ hreading hword,
      ← s.fieldWord_tilemap mt j]
    rfl

/-- R236: a read that crosses SNAP_SIZE aborts the command in the read phase. -/
theorem runCommand_readFails (k : Nat) (s : State) (pal : List Byte) (mt j off : Nat) (hs : s.pos = .reading pal mt [])
    (h : s.ReadFailsAt mt j off) :
    runCommand (frameCommand first after finish) (k + 33) s = .next (s.raise .outOfRange off) := by
  obtain ⟨m, p, n, next, hr, hread, hrun⟩ :=
    runCommand_toBadRead first after finish k s pal mt j off _ hs h.firstBadRead
  rw [hrun, runCommand_read_outOfRange _ (m + 1) _ off n next hread hr]
  exact runCommand_failed first after finish m s .outOfRange off

/-- R343: a read of an unwritten byte stops a build that takes `fault`. -/
theorem runCommand_readStops (k : Nat) (s : State) (pal : List Byte) (mt j off : Nat) (hs : s.pos = .reading pal mt [])
    (hf : s.cfg.val.unwrittenSnapRead = .fault) (h : s.ReadStopsAt mt j off) :
    runCommand (frameCommand first after finish) (k + 33) s = .fault (.unwrittenSnapRead off) := by
  obtain ⟨m, p, n, next, ⟨hr, b, hb, hu⟩, hread, hrun⟩ :=
    runCommand_toBadRead first after finish k s pal mt j off _ hs h.firstBadRead
  rw [hrun]
  refine runCommand_fault _ (m + 1) _ _ ?_
  rw [hread]
  exact snapRead_unwritten { s with pos := p } off n b next hr hf hb hu

/-! ### FrameWrites -/

/-- The first `n` FrameWrites of a metatile, while the sink answers ok. -/
theorem runCommand_emitTo (k n : Nat) (s : State) (mt : Nat) (answers : List SinkAnswer) (hn : n < 1024)
    (hs : s.pos = .writing (s.snapBytes s.paletteOffset 256) mt ((List.range 16).map (s.cell mt)) 0)
    (hsink : s.sink = List.replicate n .ok ++ answers) :
    runCommand (frameCommand first after finish) (k + n) s =
      runCommand (frameCommand first after finish) k
        { s with pos := .writing (s.snapBytes s.paletteOffset 256) mt ((List.range 16).map (s.cell mt)) n
                 sink := answers, frame := (s.metatilePixels mt n).reverse ++ s.frame } := by
  induction n generalizing k answers with
  | zero =>
    rw [List.replicate_zero, List.nil_append] at hsink
    rw [← hs, ← hsink]
    rfl
  | succ n ih =>
    have hcolour := metatilePixel_eq_frameColour s mt (n / 32) (n % 32) (by omega) (by omega)
    rw [show k + (n + 1) = (k + 1) + n by omega,
      ih (k + 1) (.ok :: answers) (by omega) (by rw [hsink, List.replicate_succ', List.append_assoc]; rfl),
      runCommand_write_ok _ k _ _ _ _ answers (frameCommand_writing first after finish _ _ mt _ n rfl) rfl,
      afterPixel, if_pos hn, hcolour, s.metatilePixels_succ mt n]
    rfl

/-- R314: the sink answers err to pixel `n` of a metatile: the abort, with the `n` pixels before it accepted. -/
theorem runCommand_writeFails (k n : Nat) (s : State) (mt : Nat) (answers : List SinkAnswer) (hn : n < 1024)
    (hs : s.pos = .reading (s.snapBytes s.paletteOffset 256) mt []) (hread : s.MetatileReadable mt)
    (hsink : s.sink = List.replicate n .ok ++ .err :: answers) :
    runCommand (frameCommand first after finish) (k + 1057) s =
      .next (({ s with sink := answers, frame := (s.metatilePixels mt n).reverse ++ s.frame } : State).raise
        .outputWriteFailure (frameIndex mt (n / 32) (n % 32))) := by
  rw [show k + 1057 = (k + (1023 - n) + 1 + 1 + n) + 32 by omega,
    runCommand_readMetatile first after finish _ s _ mt hs hread]
  refine (runCommand_emitTo first after finish _ n
    { s with pos := .writing (s.snapBytes s.paletteOffset 256) mt ((List.range 16).map (s.cell mt)) 0 }
    mt (.err :: answers) hn rfl hsink).trans ?_
  rw [runCommand_write_err _ _ _ _ _ _ answers (frameCommand_writing first after finish _ _ mt _ n rfl) rfl]
  exact runCommand_failed first after finish _
    { s with sink := answers, frame := (s.metatilePixels mt n).reverse ++ s.frame } _ _

end

end Sys2Proof.Machine
end

section
/-! MTBUILD from its start (44_metatile_combiner.md R236): completion, and the aborts of its two phases. -/
namespace Sys2Proof.Machine

/-- MTBUILD with VALID and a readable palette: the run from the metatile's first read. -/
theorem exec_mtbuild_eq_run (s : State) (mt : Nat) (hp : s.pos = .start) (hv : s.status.valid = true)
    (hpal : s.Readable s.paletteOffset 256) :
    exec (.mtbuild mt) s = runCommand (frameCommand mt (fun _ _ => .emitted) (fun t => t)) 270337
      { s with pos := .reading (s.snapBytes s.paletteOffset 256) mt [] } := by
  rw [exec_eq_run, commandFuel_eq]
  exact runCommand_readPalette mt (fun _ _ => .emitted) (fun t => t) 270337 s hp hv hpal

/-- Settles O33: the palette, one whole metatile, and the completion. -/
theorem mtbuildCompletes : Obligations.MtbuildCompletes := by
  intro s mt answers hp hv hpal hread hsink
  rw [exec_mtbuild_eq_run s mt hp hv hpal]
  refine (runCommand_metatile mt _ _ 269281
    { s with pos := .reading (s.snapBytes s.paletteOffset 256) mt [] } mt answers rfl hread hsink).trans ?_
  exact runCommand_emitted mt _ _ 269280 _ rfl

/-- Settles O38: the palette, then the metatile's reads up to the one that crosses SNAP_SIZE. -/
theorem mtbuildAbortsInItsReadPhase : Obligations.MtbuildAbortsInItsReadPhase := by
  intro s mt j off hp hv hpal hfails
  refine ⟨errInfo off, errInfo_toNat off, ?_⟩
  rw [exec_mtbuild_eq_run s mt hp hv hpal]
  exact runCommand_readFails mt _ _ 270304 { s with pos := .reading (s.snapBytes s.paletteOffset 256) mt [] }
    _ mt j off rfl hfails

/-- Settles O40: the palette, then the metatile up to the pixel answered err; its frame index fits ERR_ADDR. -/
theorem mtbuildAbortsAtAFailedWrite : Obligations.MtbuildAbortsAtAFailedWrite := by
  intro s mt n answers hp hv hmt hn hpal hread hsink
  have hindex : frameIndex mt (n / 32) (n % 32) < 262144 := frameIndex_lt _ _ _ hmt (by omega) (by omega)
  have hinfo : errInfo (frameIndex mt (n / 32) (n % 32)) = BitVec.ofNat 32 (frameIndex mt (n / 32) (n % 32)) :=
    if_pos (by omega)
  rw [exec_mtbuild_eq_run s mt hp hv hpal, ← hinfo]
  exact runCommand_writeFails mt _ _ 269280 n { s with pos := .reading (s.snapBytes s.paletteOffset 256) mt [] }
    mt answers hn rfl hread hsink

end Sys2Proof.Machine
end

section
/-! RASTER up to the reads of one of its metatiles (45_tileset_rasterizer.md R253). -/
namespace Sys2Proof.Machine

/-- The first `n` pixels of the frame in RASTER's order. -/
def State.rasterPixels (s : State) (n : Nat) : List Pixel :=
  (List.range n).map fun k => s.framePixel (rasterIndex k)

/-- After the pixels of the metatiles before `i` come those of metatile `i`. -/
theorem State.rasterPixels_add (s : State) (i n : Nat) (hn : n ≤ 1024) :
    s.rasterPixels (1024 * i + n) = s.rasterPixels (1024 * i) ++ s.metatilePixels i n := by
  rw [State.rasterPixels, List.range_add, List.map_append, List.map_map]
  refine congrArg (s.rasterPixels (1024 * i) ++ ·) (List.map_congr_left fun k hk => ?_)
  have hlt : k < n := List.mem_range.1 hk
  rw [Function.comp_apply, rasterIndex_add i k (by omega)]

/-- The metatiles before `i`, each read and written while the sink answers ok. -/
theorem runCommand_metatiles (first : Nat) (finish : State → State) (k i : Nat) (s : State)
    (answers : List SinkAnswer) (hi : i < 256) (hs : s.pos = .reading (s.snapBytes s.paletteOffset 256) 0 [])
    (hread : ∀ mt, mt < i → s.MetatileReadable mt) (hsink : s.sink = List.replicate (1024 * i) .ok ++ answers) :
    runCommand (frameCommand first afterMetatile finish) (k + 1056 * i) s =
      runCommand (frameCommand first afterMetatile finish) k
        { s with pos := .reading (s.snapBytes s.paletteOffset 256) i [], sink := answers
                 frame := (s.rasterPixels (1024 * i)).reverse ++ s.frame } := by
  induction i generalizing k answers with
  | zero =>
    rw [Nat.mul_zero, List.replicate_zero, List.nil_append] at hsink
    rw [← hs, ← hsink]
    rfl
  | succ i ih =>
    have hnext : afterMetatile (s.snapBytes s.paletteOffset 256) i =
        .reading (s.snapBytes s.paletteOffset 256) (i + 1) [] := if_pos (by omega)
    rw [Nat.mul_succ] at hsink ⊢
    rw [Nat.mul_succ, show k + (1056 * i + 1056) = (k + 1056) + 1056 * i by omega,
      ih (k + 1056) (List.replicate 1024 .ok ++ answers) (by omega) (fun mt hmt => hread mt (by omega))
        (by rw [hsink, List.replicate_add, List.append_assoc]),
      s.rasterPixels_add i 1024 (le_refl _), List.reverse_append, List.append_assoc, ← hnext]
    exact runCommand_metatile first afterMetatile finish k
      { s with pos := .reading (s.snapBytes s.paletteOffset 256) i [], sink := List.replicate 1024 .ok ++ answers
               frame := (s.rasterPixels (1024 * i)).reverse ++ s.frame }
      i answers rfl (hread i (by omega)) rfl

/-- RASTER with VALID and a readable palette, the metatiles before `i` readable and their pixels accepted: the run from
metatile `i`'s first read. -/
theorem exec_raster_eq_run (k i : Nat) (s : State) (answers : List SinkAnswer) (hk : k + 1056 * i = 270337)
    (hp : s.pos = .start) (hv : s.status.valid = true) (hi : i < 256) (hpal : s.Readable s.paletteOffset 256)
    (hread : ∀ mt, mt < i → s.MetatileReadable mt) (hsink : s.sink = List.replicate (1024 * i) .ok ++ answers) :
    exec .raster s =
      runCommand (frameCommand 0 afterMetatile (fun t => { t with status := t.status.setFrameValid })) k
        { s with pos := .reading (s.snapBytes s.paletteOffset 256) i [], sink := answers
                 frame := (s.rasterPixels (1024 * i)).reverse ++ s.frame } := by
  rw [exec_eq_run, commandFuel_eq, ← hk]
  exact (runCommand_readPalette 0 afterMetatile _ (k + 1056 * i) s hp hv hpal).trans
    (runCommand_metatiles 0 _ k i { s with pos := .reading (s.snapBytes s.paletteOffset 256) 0 [] } answers hi rfl
      hread hsink)

end Sys2Proof.Machine
end

section
/-! A SnapRead that covers a byte not written since power-on, on a build that takes `fault` (70_reset_and_hazards.md
R343). -/
namespace Sys2Proof.Machine

/-- With VALID, the first action of a command that reads memory is its first SnapRead (20_memory.md R71). -/
theorem action_first_read (s : State) (i : Instr) (off n : Nat) (hp : s.pos = .start) (hv : s.status.valid = true)
    (h : (∃ mt ent, i = .tmfetch mt ent ∧ off = s.tilemapOffset mt ent ∧ n = 2) ∨
      (∃ tile row col, i = .pixidx tile row col ∧ off = s.recordOffset tile ∧ n = 32) ∨
      (∃ sel idx, i = .palres sel idx ∧ idx ≠ 0 ∧ off = s.paletteOffset ∧ n = 256) ∨
      (((∃ mt, i = .mtbuild mt) ∨ i = .raster) ∧ off = s.paletteOffset ∧ n = 256)) :
    ∃ next, action i s = .read off n next := by
  rcases h with ⟨mt, ent, rfl, rfl, rfl⟩ | ⟨tile, row, col, rfl, rfl, rfl⟩ | ⟨sel, idx, rfl, hidx, rfl, rfl⟩ |
    ⟨⟨mt, rfl⟩ | rfl, rfl, rfl⟩
  · exact ⟨_, singleRead_start _ _ _ s hp hv⟩
  · exact ⟨_, singleRead_start _ _ _ s hp hv⟩
  · exact ⟨_, (if_neg hidx).trans (singleRead_start _ _ _ s hp hv)⟩
  · exact ⟨_, frameCommand_start mt (fun _ _ => .emitted) (fun t => t) s hp hv⟩
  · exact ⟨_, frameCommand_start 0 afterMetatile (fun t => { t with status := t.status.setFrameValid }) s hp hv⟩

/-- A command whose next SnapRead covers an unwritten byte stops with the read's offset. -/
theorem exec_fault_of_read_unwritten (i : Instr) (s : State) (off n k : Nat) (next : List Byte → Pos)
    (h : action i s = .read off n next) (hr : off + n ≤ s.snapSize.toNat) (hf : s.cfg.val.unwrittenSnapRead = .fault)
    (hk : k < n) (hu : s.snap.get? (off + k) = none) : exec i s = .fault (.unwrittenSnapRead off) := by
  rw [exec_eq_run, commandFuel_eq]
  refine runCommand_fault (action i) _ s _ ?_
  rw [h]
  exact snapRead_unwritten s off n k next hr hf hk hu

/-- Settles O43: the first action of each command is the SnapRead at fault; in the read phase of a metatile it is the first
read that gives no bytes, which RASTER reaches after the metatiles before it. -/
theorem unwrittenReadFaultsWhereTheBuildSaysSo : Obligations.UnwrittenReadFaultsWhereTheBuildSaysSo := by
  refine ⟨fun s i off n k hp hv hfirst hr hf hk hu => ?_, fun s mt j off hp hv hf hpal hstops => ?_,
    fun s i j off answers hp hv hi hf hpal hread hstops hsink => ?_⟩
  · obtain ⟨next, hnext⟩ := action_first_read s i off n hp hv hfirst
    exact exec_fault_of_read_unwritten i s off n k next hnext hr hf hk hu
  · rw [exec_mtbuild_eq_run s mt hp hv hpal]
    exact runCommand_readStops mt _ _ 270304 { s with pos := .reading (s.snapBytes s.paletteOffset 256) mt [] }
      _ mt j off rfl hf hstops
  · rw [exec_raster_eq_run (270304 - 1056 * i + 33) i s answers (by omega) hp hv hi hpal hread hsink]
    exact runCommand_readStops 0 _ _ (270304 - 1056 * i)
      { s with pos := .reading (s.snapBytes s.paletteOffset 256) i [], sink := answers
               frame := (s.rasterPixels (1024 * i)).reverse ++ s.frame }
      _ i j off rfl hf hstops

end Sys2Proof.Machine
end

section
/-! What MTBUILD and RASTER leave unchanged, and which pixels they add (44_metatile_combiner.md R236,
45_tileset_rasterizer.md R253, 60_exceptions.md R304, R305). -/
namespace Sys2Proof

/-- The frame indices of the metatiles a command emits. -/
def Instr.OwnsIndex (i : Instr) (p : Nat) : Prop :=
  ∃ mt n, i.emits mt ∧ n < 1024 ∧ p = Machine.frameIndex mt (n / 32) (n % 32)

/-- What a frame command keeps of STATUS and ERR_ADDR, from `f` and `a` to `f'` and `a'`: VALID and the sticky flags always,
FRAME_VALID but on RASTER's completion (R254), the error fields but on an abort (R304, R305). -/
def Instr.KeepsStatus (i : Instr) (f f' : Machine.Status) (a a' : Word) : Prop :=
  f'.valid = f.valid ∧ f'.cmdOvf = f.cmdOvf ∧ f'.wlock = f.wlock ∧
    ((∃ mt, i = .mtbuild mt) → f'.frameValid = f.frameValid) ∧
    (f.err = false → f'.err = true → f'.frameValid = f.frameValid) ∧
    (f.err = false → f'.err = false → a' = a ∧ f'.errCode = f.errCode)

end Sys2Proof

namespace Sys2Proof.Machine

/-! ### The steps before a command's last one -/

/-- `u` is a state of the run of `i` from `s`, before its last step: answers taken and pixels added, the command's own if
the run began at a position of the command. -/
def State.Advanced (i : Instr) (s u : State) : Prop :=
  ∃ pos sink added, u = { s with pos := pos, sink := sink, frame := added ++ s.frame } ∧ sink <:+ s.sink ∧
    (s.pos.Fits i → pos.Fits i ∧ ∀ p ∈ added, i.OwnsIndex p.index)

theorem State.Advanced.refl (i : Instr) (s : State) : s.Advanced i s :=
  ⟨s.pos, s.sink, [], rfl, List.suffix_rfl, fun h => ⟨h, nofun⟩⟩

theorem State.Advanced.trans {i : Instr} {s u v : State} (h : s.Advanced i u) (h' : u.Advanced i v) : s.Advanced i v := by
  obtain ⟨pos, sink, added, rfl, hsink, hown⟩ := h
  obtain ⟨pos', sink', added', rfl, hsink', hown'⟩ := h'
  refine ⟨pos', sink', added' ++ added, by rw [List.append_assoc], hsink'.trans hsink, fun hs => ?_⟩
  obtain ⟨hpos, hadded⟩ := hown hs
  obtain ⟨hpos', hadded'⟩ := hown' hpos
  exact ⟨hpos', List.forall_mem_append.2 ⟨hadded', hadded⟩⟩

/-- The two frame commands share their actions; of the registers RASTER's completion writes FRAME_VALID (R254), MTBUILD's
none. -/
theorem action_frame (i : Instr) (hi : i.frame = true) :
    ∃ first after finish, action i = frameCommand first after finish ∧
      ∀ s : State, ∃ v, finish s = { s with status := { s.status with frameValid := v } } ∧
        (i = .raster ∨ v = s.status.frameValid) := by
  cases i with
  | nop | validate | clrerr | tmdec | tmfetch | pixidx | palres => cases hi
  | mtbuild mt => exact ⟨mt, fun _ _ => .emitted, fun t => t, rfl, fun s => ⟨_, rfl, .inr rfl⟩⟩
  | raster => exact ⟨0, afterMetatile, _, rfl, fun s => ⟨true, rfl, .inl rfl⟩⟩

/-- From a position of the command, a FrameWrite is one of its own pixels. -/
theorem action_write_owns (i : Instr) (s : State) (p : Nat) (c : RGB) (next : Pos) (h : action i s = .write p c next)
    (hs : s.pos.Fits i) : i.OwnsIndex p := by
  have hframe : i.frame = true := by
    by_contra hi
    exact action_ne_write i s (Bool.eq_false_iff.2 hi) p c next h
  obtain ⟨first, after, finish, hact, -⟩ := action_frame i hframe
  rw [hact] at h
  obtain ⟨pal, mt, cells, n, hp, rfl, -⟩ := frameCommand_write first after finish s p c next h
  rw [hp] at hs
  obtain ⟨hmt, -, -, -, hn⟩ := hs
  exact ⟨mt, n, hmt, hn, rfl⟩

/-- A step that is not the command's last advances its run. -/
theorem coreStep_advanced (i : Instr) (s t : State) (hlast : ∀ u, action i s ≠ .last u) (h : coreStep i s = .next t) :
    s.Advanced i t := by
  have hfits : s.pos.Fits i → t.pos.Fits i := fun hs => perform_fits i _ s t (action_fits i s hs) hlast hs h
  rw [coreStep] at h
  cases ha : action i s with
  | last u => exact absurd ha (hlast u)
  | read off n next =>
    rw [ha] at h
    rcases snapRead_cases s off n next with ⟨h1, -⟩ | ⟨h1, -⟩ | ⟨h1, -⟩ <;> rw [perform, h1] at h <;> cases h
    · exact ⟨_, s.sink, [], rfl, List.suffix_rfl, fun hs => ⟨hfits hs, nofun⟩⟩
    · exact ⟨_, s.sink, [], rfl, List.suffix_rfl, fun hs => ⟨hfits hs, nofun⟩⟩
  | write p c next =>
    rw [ha, perform] at h
    cases h
    rcases frameWrite_cases s p c next with ⟨h1, -⟩ | ⟨rest, hsink, h1⟩ | ⟨rest, hsink, h1⟩ <;> rw [h1] at hfits ⊢
    · exact .refl i s
    · refine ⟨next, rest, [⟨p, c⟩], rfl, ⟨[.ok], hsink.symm⟩, fun hs => ⟨hfits hs, ?_⟩⟩
      exact List.forall_mem_singleton.2 (action_write_owns i s p c next ha hs)
    · exact ⟨_, rest, [], rfl, ⟨[.err], hsink.symm⟩, fun hs => ⟨hfits hs, nofun⟩⟩

/-- A run of a command is steps that advance it and, unless the sink is silent, its last step. -/
theorem exec_advanced (i : Instr) (s t : State) (h : exec i s = .next t) :
    ∃ u, s.Advanced i u ∧ (t = u ∨ action i u = .last t) := by
  rw [exec_eq_run] at h
  refine runCommand_induct (action i) (s.Advanced i) (fun t => ∃ u, s.Advanced i u ∧ (t = u ∨ action i u = .last t))
    (fun u v hu hv hgo => ?_) (fun u v hu hv _ => ?_) (fun u hu => ⟨u, hu, .inl rfl⟩) commandFuel s t (.refl i s) h
  · refine hu.trans (coreStep_advanced i u v (fun x hx => ?_) hv)
    rw [hx] at hgo
    cases hgo
  · by_cases hlast : ∃ x, action i u = .last x
    · obtain ⟨x, hx⟩ := hlast
      rw [hx] at hv
      cases hv
      exact ⟨u, hu, .inr hx⟩
    · exact ⟨v, hu.trans (coreStep_advanced i u v (not_exists.1 hlast) hv), .inl rfl⟩

/-! ### The last step of a frame command -/

theorem frameCommand_last_cases (first : Nat) (after : List Byte → Nat → Pos) (finish : State → State) (s t : State)
    (h : frameCommand first after finish s = .last t) : t = (finish s).complete ∨ ∃ e info, t = s.raise e info := by
  rw [frameCommand] at h
  split at h
  · cases h
  · cases h
  · cases h
  · cases h; exact .inl rfl
  · cases h; exact .inr ⟨_, _, rfl⟩
  · split at h
    · cases h
    · cases h; exact .inr ⟨_, _, rfl⟩

/-- R305: the abort writes the error fields and no other flag but BUSY. -/
theorem Status.raise_keepsStatus (f : Status) (i : Instr) (e : CmdError) (a a' : Word) :
    i.KeepsStatus f (f.raise e) a a' :=
  ⟨rfl, rfl, rfl, fun _ => rfl, fun _ _ => rfl, fun _ herr => by cases herr⟩

theorem action_last_frame (i : Instr) (s t : State) (hi : i.frame = true) (h : action i s = .last t) :
    ∃ f a, t = { s with latch := none, pos := .start, errAddr := a, status := f } ∧
      i.KeepsStatus s.status f s.errAddr a := by
  obtain ⟨first, after, finish, hact, hfinish⟩ := action_frame i hi
  rw [hact] at h
  rcases frameCommand_last_cases first after finish s t h with rfl | ⟨e, info, rfl⟩
  · obtain ⟨v, hv, hraster⟩ := hfinish s
    rw [hv]
    refine ⟨_, _, rfl, rfl, rfl, rfl, ?_, fun hs ht => absurd (hs.symm.trans ht) (by decide), fun _ _ => ⟨rfl, rfl⟩⟩
    rintro ⟨mt, rfl⟩
    exact hraster.resolve_left nofun
  · exact ⟨_, _, rfl, s.status.raise_keepsStatus i e _ _⟩

/-- The state a frame command leaves, whether it ended or waits for a silent sink. -/
theorem exec_frame (i : Instr) (s t : State) (hi : i.frame = true) (h : exec i s = .next t) :
    ∃ latch pos f a sink added, t = { s with
        latch := latch, pos := pos, status := f, errAddr := a, sink := sink, frame := added ++ s.frame } ∧
      i.KeepsStatus s.status f s.errAddr a ∧ sink <:+ s.sink ∧
      (s.pos.Fits i → ∀ p ∈ added, i.OwnsIndex p.index) := by
  obtain ⟨u, ⟨pos, sink, added, rfl, hsink, hown⟩, rfl | hlast⟩ := exec_advanced i s t h
  · exact ⟨s.latch, pos, s.status, s.errAddr, sink, added, rfl,
      ⟨rfl, rfl, rfl, fun _ => rfl, fun _ _ => rfl, fun _ _ => ⟨rfl, rfl⟩⟩, hsink, fun hs => (hown hs).2⟩
  · obtain ⟨f, a, rfl, hkeeps⟩ := action_last_frame i _ t hi hlast
    exact ⟨none, .start, f, a, sink, added, rfl, hkeeps, hsink, fun hs => (hown hs).2⟩

/-- Settles O46: `exec_frame` lists all that can change; the pixels of MTBUILD's metatile are its own, and those of a metatile
of RASTER's stand in its order by `rasterIndex_add`. -/
theorem frameCommandsFrame : Obligations.FrameCommandsFrame := by
  intro s t i hi h
  obtain ⟨latch, pos, f, a, sink, added, rfl, ⟨hvalid, hovf, hwlock, hmtbuild, habort, hend⟩, hsink, hown⟩ :=
    exec_frame i s t hi h
  refine ⟨rfl, rfl, rfl, rfl, rfl, rfl, fun _ => ⟨rfl, rfl⟩, rfl, rfl, hvalid, hovf, hwlock, hmtbuild, habort, hend,
    ⟨added, rfl⟩, hsink, fun hs => ⟨added, rfl, fun p hp => ?_⟩⟩
  obtain ⟨m, n, hm, hn, hindex⟩ := hown hs p hp
  constructor
  · rintro mt rfl
    obtain rfl : m = mt := hm
    exact ⟨n, hn, hindex⟩
  · rintro rfl
    have hm256 : m < 256 := hm
    exact ⟨1024 * m + n, by omega, by rw [hindex, rasterIndex_add m n hn]⟩

end Sys2Proof.Machine
end

section
/-! RASTER from its start to its end (45_tileset_rasterizer.md R251, R253 to R257): completion, and the aborts of its
metatiles. -/
namespace Sys2Proof.Machine

/-- The pixels of the metatiles before `i`, then the first `n` of metatile `i`, as the sink holds them. -/
theorem State.rasterPixels_reverse_add (s : State) (i n : Nat) (hn : n ≤ 1024) (frame : List Pixel) :
    (s.metatilePixels i n).reverse ++ ((s.rasterPixels (1024 * i)).reverse ++ frame) =
      (s.rasterPixels (1024 * i + n)).reverse ++ frame := by
  rw [s.rasterPixels_add i n hn, List.reverse_append, List.append_assoc]

/-- Settles O34: the palette, the 255 metatiles before the last one, the last one, and the completion. -/
theorem rasterCompletes : Obligations.RasterCompletes := by
  intro s answers hp hv hpal hread hsink
  have hsplit : s.sink = List.replicate (1024 * 255) .ok ++ (List.replicate 1024 .ok ++ answers) := by
    rw [hsink, ← List.append_assoc, ← List.replicate_add]
  have hframe := s.rasterPixels_reverse_add 255 1024 (le_refl _) s.frame
  rw [exec_raster_eq_run 1057 255 s _ rfl hp hv (by decide) hpal (fun mt hmt => hread mt (by omega)) hsplit]
  refine (runCommand_metatile 0 _ _ 1
    { s with pos := .reading (s.snapBytes s.paletteOffset 256) 255 [], sink := List.replicate 1024 .ok ++ answers
             frame := (s.rasterPixels (1024 * 255)).reverse ++ s.frame }
    255 answers rfl (hread 255 (by decide)) rfl).trans ?_
  rw [runCommand_emitted 0 _ _ 0 _ rfl]
  exact congrArg (fun frame => Host.Outcome.next
    ({ s with sink := answers, frame := frame, status := s.status.setFrameValid } : State).complete) hframe

/-- Settles O39: the metatiles before `i`, then its reads up to the one that crosses SNAP_SIZE. -/
theorem rasterAbortsAtTheFirstFailingRead : Obligations.RasterAbortsAtTheFirstFailingRead := by
  intro s i j off answers hp hv hi hpal hread hfails hsink
  refine ⟨errInfo off, errInfo_toNat off, ?_⟩
  rw [exec_raster_eq_run (270304 - 1056 * i + 33) i s answers (by omega) hp hv hi hpal hread hsink]
  exact runCommand_readFails 0 _ _ (270304 - 1056 * i)
    { s with pos := .reading (s.snapBytes s.paletteOffset 256) i [], sink := answers
             frame := (s.rasterPixels (1024 * i)).reverse ++ s.frame }
    _ i j off rfl hfails

/-- R314: RASTER's abort at the sink's first err, to pixel `n` of metatile `i`. -/
theorem exec_raster_writeFails (s : State) (i n : Nat) (answers : List SinkAnswer) (hp : s.pos = .start)
    (hv : s.status.valid = true) (hi : i < 256) (hn : n < 1024) (hpal : s.Readable s.paletteOffset 256)
    (hread : ∀ mt, mt ≤ i → s.MetatileReadable mt)
    (hsink : s.sink = List.replicate (1024 * i + n) .ok ++ .err :: answers) :
    exec .raster s =
      .next (({ s with sink := answers, frame := (s.rasterPixels (1024 * i + n)).reverse ++ s.frame } : State).raise
        .outputWriteFailure (rasterIndex (1024 * i + n))) := by
  have hsplit : s.sink = List.replicate (1024 * i) .ok ++ (List.replicate n .ok ++ .err :: answers) := by
    rw [hsink, List.replicate_add, List.append_assoc]
  rw [exec_raster_eq_run (269280 - 1056 * i + 1057) i s _ (by omega) hp hv hi hpal (fun mt hmt => hread mt (by omega))
      hsplit,
    ← s.rasterPixels_reverse_add i n hn.le, rasterIndex_add i n hn]
  exact runCommand_writeFails 0 _ _ (269280 - 1056 * i) n
    { s with pos := .reading (s.snapBytes s.paletteOffset 256) i []
             sink := List.replicate n .ok ++ .err :: answers
             frame := (s.rasterPixels (1024 * i)).reverse ++ s.frame }
    i answers hn rfl (hread i (le_refl _)) rfl

/-- Settles O41: pixel `k` is pixel `k % 1024` of metatile `k / 1024`; its frame index fits ERR_ADDR. -/
theorem rasterAbortsAtAFailedWrite : Obligations.RasterAbortsAtAFailedWrite := by
  intro s k answers hp hv hk hpal hread hsink
  have hindex := rasterIndex_lt k hk
  have hinfo : errInfo (rasterIndex k) = BitVec.ofNat 32 (rasterIndex k) := if_pos (by omega)
  have hrun := exec_raster_writeFails s (k / 1024) (k % 1024) answers hp hv (by omega) (by omega) hpal hread
    (by rw [Nat.div_add_mod, hsink])
  rw [Nat.div_add_mod] at hrun
  rw [hrun, ← hinfo]
  rfl

/-- R255: the frame index of RASTER's pixel `k` stands once among its pixels, with the colour the rules define for it. -/
theorem State.find?_rasterPixels (s : State) (n k : Nat) (hk : k < n) :
    (s.rasterPixels n).reverse.find? (fun q => q.index == rasterIndex k) = some (s.framePixel (rasterIndex k)) := by
  have hmem : s.framePixel (rasterIndex k) ∈ (s.rasterPixels n).reverse :=
    List.mem_reverse.2 (List.mem_map_of_mem (List.mem_range.2 hk))
  obtain ⟨q, hq⟩ := Option.isSome_iff_exists.1
    (List.find?_isSome (p := fun q : Pixel => q.index == rasterIndex k).2 ⟨_, hmem, beq_self_eq_true _⟩)
  have hbeq := List.find?_some hq
  have hindex : q.index = rasterIndex k := eq_of_beq hbeq
  obtain ⟨j, -, rfl⟩ := List.mem_map.1 (List.mem_reverse.1 (List.mem_of_find?_eq_some hq))
  rw [hq]
  exact congrArg (fun p => some (s.framePixel p)) hindex

/-- Settles O35: the pixel found at an index is RASTER's, whatever the sink held before. -/
theorem rasterFillsTheFrame : Obligations.RasterFillsTheFrame := by
  intro s answers hp hv hpal hread hsink
  refine ⟨_, rasterCompletes s answers hp hv hpal hread hsink, fun Y X hY hX => ?_⟩
  have hfind := s.find?_rasterPixels 262144 (rasterNumber (512 * Y + X)) (rasterNumber_lt _ (by omega))
  rw [rasterIndex_rasterNumber] at hfind
  have hdiv : (512 * Y + X) / 512 = Y := by omega
  have hmod : (512 * Y + X) % 512 = X := by omega
  rw [State.sinkPixel, List.find?_append]
  change Option.map Pixel.colour (((s.rasterPixels 262144).reverse.find? _).or _) = _
  rw [hfind, Option.some_or, Option.map_some, State.framePixel, hdiv, hmod]

end Sys2Proof.Machine
end

section
/-! What a step can do to the frame and to FRAME_VALID (45_tileset_rasterizer.md R254), said once for every kind of move. -/
namespace Sys2Proof.Machine

/-! ### Moves that leave the frame alone -/

/-- No pixel is accepted, FRAME_VALID is not set, and the sequencer position is empty or where it was. -/
structure State.LeavesFrame (s t : State) : Prop where
  frame : t.frame = s.frame
  frameValid : t.status.frameValid = true → s.status.frameValid = true
  place : t.pos = .start ∨ t.latch = s.latch ∧ t.pos = s.pos

theorem State.LeavesFrame.refl (s : State) : s.LeavesFrame s := ⟨rfl, id, .inr ⟨rfl, rfl⟩⟩

theorem State.LeavesFrame.answer {s t : State} (h : s.LeavesFrame t) (r : Reply) : s.LeavesFrame (t.answer r) :=
  ⟨h.frame, h.frameValid, h.place⟩

theorem softReset_leavesFrame (s : State) : s.LeavesFrame s.softReset := ⟨rfl, nofun, .inl rfl⟩

/-- R235: acceptance can clear FRAME_VALID. -/
theorem accept_leavesFrame (s : State) (w : Word) : s.LeavesFrame (s.accept w) := by
  refine ⟨rfl, fun h => ?_, .inl rfl⟩
  rw [State.accept_status, Status.accept_frameValid] at h
  split at h
  · cases h
  · exact h

theorem writeReg_leavesFrame (r : Reg) (v : Word) (s : State) : s.LeavesFrame (writeReg r v s) := by
  cases r with
  | status | fmtIdx | resEntry | resIndex | resRgb | errAddr => exact .refl s
  | ctrl =>
    rw [writeReg, writeCtrl]
    split
    · exact softReset_leavesFrame s
    · exact .refl s
  | cmd =>
    rw [writeReg, writeCmd]
    split
    · exact ⟨rfl, id, .inr ⟨rfl, rfl⟩⟩
    · exact accept_leavesFrame s v
  | snapSize =>
    rw [writeReg, writeSnapSize]
    split <;> exact ⟨rfl, id, .inr ⟨rfl, rfl⟩⟩

theorem writeSnap_leavesFrame (off : Nat) (v : Byte) (s : State) : s.LeavesFrame (writeSnap off v s) := by
  rw [writeSnap]
  split <;> exact ⟨rfl, id, .inr ⟨rfl, rfl⟩⟩

theorem hostAccess_leavesFrame (a : Access) (s : State) : s.LeavesFrame (hostAccess a s) := by
  cases a with
  | regRead width off =>
    rw [hostAccess]
    split <;> exact (State.LeavesFrame.refl s).answer _
  | regWrite width off v =>
    rw [hostAccess]
    split
    · exact (writeReg_leavesFrame _ v s).answer _
    · exact (State.LeavesFrame.refl s).answer _
  | snapRead off =>
    rw [hostAccess]
    split <;> exact (State.LeavesFrame.refl s).answer _
  | snapWrite off v =>
    rw [hostAccess]
    split
    · exact (writeSnap_leavesFrame off v s).answer _
    · exact (State.LeavesFrame.refl s).answer _

/-! ### Every step -/

/-- What the core's move by `f` does: nothing while idle, the abort of an illegal word, or `f` of the command in flight. -/
theorem withLatched_frame_cases (f : Instr → State → Result) (s t : State) (h : withLatched f s = .next t) :
    s.LeavesFrame t ∨ ∃ w i, s.latch = some w ∧ decode w = .ok i ∧ f i s = .next t := by
  rw [withLatched] at h
  split at h
  · cases h; exact .inl (.refl s)
  · split at h
    · exact .inr ⟨_, _, ‹_›, ‹_›, h⟩
    · cases h; exact .inl ⟨rfl, id, .inl rfl⟩

/-- `t` is what one step of the command in flight, or its run, leads to from `s`. -/
def State.Runs (s : State) (w : Word) (i : Instr) (t : State) : Prop :=
  s.latch = some w ∧ decode w = .ok i ∧ (coreStep i s = .next t ∨ exec i s = .next t)

theorem runMove_frame_cases (s t : State) (h : runMove s = .next t) : s.LeavesFrame t ∨ ∃ w i, s.Runs w i t :=
  (withLatched_frame_cases exec s t h).imp_right fun ⟨w, i, hlatch, hw, hexec⟩ => ⟨w, i, hlatch, hw, .inr hexec⟩

theorem coreMove_frame_cases (s t : State) (h : coreMove s = .next t) : s.LeavesFrame t ∨ ∃ w i, s.Runs w i t :=
  (withLatched_frame_cases coreStep s t h).imp_right fun ⟨w, i, hlatch, hw, hstep⟩ => ⟨w, i, hlatch, hw, .inl hstep⟩

theorem move_frame_cases (m : Move) (s t : State) (h : move m s = .next t) : s.LeavesFrame t ∨ ∃ w i, s.Runs w i t := by
  cases m with
  | host a => cases h; exact .inl (hostAccess_leavesFrame a s)
  | core => exact coreMove_frame_cases s t h
  | run => exact runMove_frame_cases s t h
  | wait gaps =>
    cases h
    rw [waitMove_frame]
    exact .inl ⟨rfl, id, .inr ⟨rfl, rfl⟩⟩
  | powerOn => cases h; exact .inl ⟨rfl, nofun, .inl rfl⟩

/-- A step leaves the frame alone or runs the command in flight, from the state without the move it has taken. -/
theorem step_frame_cases (s t : State) (h : step s = .next t) :
    s.LeavesFrame t ∨ ∃ sched w i, ({ s with sched := sched } : State).Runs w i t := by
  rw [step, nextMove] at h
  split at h
  · exact (runMove_frame_cases s t h).imp_right fun hruns => ⟨s.sched, hruns⟩
  · rename_i m rest _
    rcases move_frame_cases m { s with sched := rest } t h with ⟨hframe, hfv, hplace⟩ | hruns
    · exact .inl ⟨hframe, hfv, hplace⟩
    · exact .inr ⟨rest, hruns⟩

/-! ### FRAME_VALID over a command -/

/-- R304, R305: a frame command completes from its last position only; from any other its last step is an abort. -/
theorem frameCommand_last_emitted (first : Nat) (after : List Byte → Nat → Pos) (finish : State → State) (s t : State)
    (h : frameCommand first after finish s = .last t) :
    (s.pos = .emitted ∧ t = (finish s).complete) ∨ ∃ e info, t = s.raise e info := by
  rw [frameCommand] at h
  split at h
  · cases h
  · cases h
  · cases h
  · cases h; exact .inl ⟨‹_›, rfl⟩
  · cases h; exact .inr ⟨_, _, rfl⟩
  · split at h
    · cases h
    · cases h; exact .inr ⟨_, _, rfl⟩

/-- R254: the last step of a command keeps FRAME_VALID, but for RASTER's completion. -/
theorem action_last_frameValid (i : Instr) (s t : State) (h : action i s = .last t) :
    t.status.frameValid = s.status.frameValid ∨ (i = .raster ∧ s.pos = .emitted ∧ t.status.done = true) := by
  cases hi : i.frame with
  | false =>
    have hexec := exec_last i s t h
    by_cases hcontrol : i = .nop ∨ i = .validate ∨ i = .clrerr
    · obtain ⟨-, -, -, -, -, -, -, -, -, -, hfv, -⟩ := controlCommandsFrame s t i hcontrol hexec
      exact .inl hfv
    · obtain ⟨hnop, hvalidate, hclrerr⟩ : i ≠ .nop ∧ i ≠ .validate ∧ i ≠ .clrerr := by simpa only [not_or] using hcontrol
      obtain ⟨-, -, -, -, -, -, -, -, -, hfv, -⟩ := inspectionCommandsFrame s t i hi hnop hvalidate hclrerr hexec
      exact .inl hfv
  | true =>
    obtain ⟨first, after, finish, hact, hfinish⟩ := action_frame i hi
    rw [hact] at h
    rcases frameCommand_last_emitted first after finish s t h with ⟨hpos, rfl⟩ | ⟨e, info, rfl⟩
    · obtain ⟨v, hv, hraster | hkept⟩ := hfinish s
      · exact .inr ⟨hraster, hpos, rfl⟩
      · exact .inl (by rw [hv]; exact hkept)
    · exact .inl rfl

theorem coreStep_frameValid (i : Instr) (s t : State) (h : coreStep i s = .next t) :
    t.status.frameValid = s.status.frameValid ∨ (i = .raster ∧ t.status.done = true) := by
  by_cases hlast : ∃ u, action i s = .last u
  · obtain ⟨u, hu⟩ := hlast
    rw [coreStep, hu] at h
    cases h
    exact (action_last_frameValid i s _ hu).imp_right fun ⟨hi, _, hdone⟩ => ⟨hi, hdone⟩
  · rw [perform_not_last _ s t h (not_exists.1 hlast)]
    exact .inl rfl

theorem exec_frameValid (i : Instr) (s t : State) (h : exec i s = .next t) :
    t.status.frameValid = s.status.frameValid ∨ (i = .raster ∧ t.status.done = true) := by
  obtain ⟨u, ⟨pos, sink, added, rfl, -⟩, rfl | hlast⟩ := exec_advanced i s t h
  · exact .inl rfl
  · exact (action_last_frameValid i _ t hlast).imp_right fun ⟨hi, _, hdone⟩ => ⟨hi, hdone⟩

/-- Settles O50: only a step that runs the command in flight can set FRAME_VALID, and only as RASTER's completion. -/
theorem onlyRasterSetsFrameValid : Obligations.OnlyRasterSetsFrameValid := by
  intro s t hstep hclear hset
  rcases step_frame_cases s t hstep with hleaves | ⟨sched, w, i, hlatch, hw, hruns⟩
  · exact absurd (hclear.symm.trans (hleaves.frameValid hset)) (by decide)
  · have hcases : t.status.frameValid = s.status.frameValid ∨ (i = .raster ∧ t.status.done = true) :=
      hruns.elim (coreStep_frameValid i _ t) (exec_frameValid i _ t)
    rcases hcases with hkept | ⟨rfl, hdone⟩
    · exact absurd (hclear.symm.trans (hkept.symm.trans hset)) (by decide)
    · exact ⟨hdone, w, hlatch, hw⟩

end Sys2Proof.Machine
end

section
/-! The meaning of FRAME_VALID is kept (45_tileset_rasterizer.md R254): a RASTER in flight has had accepted exactly the pixels
its position says (R253). -/
namespace Sys2Proof.Machine

/-! ### How many pixels a position of RASTER says are accepted -/

/-- The count that `State.rasterCount` reads off the position. -/
def Pos.rasterCount : Pos → Option Nat
  | .start => none
  | .got _ => none
  | .reading _ mt _ => some (1024 * mt)
  | .record _ mt _ _ => some (1024 * mt)
  | .writing _ mt _ n => some (1024 * mt + n)
  | .emitted => some 262144
  | .failed _ _ => none

theorem State.rasterCount_of_raster (s : State) (w : Word) (hlatch : s.latch = some w) (hw : decode w = .ok .raster) :
    s.rasterCount = s.pos.rasterCount := by
  rw [State.rasterCount, hlatch]
  simp only [hw]
  cases s.pos <;> rfl

theorem State.rasterCount_of_start (s : State) (hp : s.pos = .start) : s.rasterCount = none := by
  rw [State.rasterCount, hp]
  split
  · rfl
  · split <;> rfl

theorem State.rasterCount_of_not_raster (s : State) (w : Word) (i : Instr) (hlatch : s.latch = some w)
    (hw : decode w = .ok i) (hi : i ≠ .raster) : s.rasterCount = none := by
  rw [State.rasterCount, hlatch]
  simp only [hw, Except.ok.injEq, hi, if_false]

theorem afterRecord_rasterCount (pal : List Byte) (mt : Nat) (cells : List Cell) :
    (afterRecord pal mt cells).rasterCount = some (1024 * mt) := by
  rw [afterRecord]
  split <;> rfl

/-- The count goes up by the pixel accepted, into the next metatile and to the end of the frame. -/
theorem afterPixel_rasterCount (pal : List Byte) (mt : Nat) (cells : List Cell) (n : Nat) (hmt : mt < 256)
    (hn : n < 1024) :
    (afterPixel (afterMetatile pal mt) pal mt cells n).rasterCount = some (1024 * mt + n + 1) := by
  rw [afterPixel]
  split
  · rfl
  · rw [afterMetatile]
    split <;> rw [Pos.rasterCount, Option.some.injEq] <;> omega

theorem action_raster (s : State) :
    action .raster s = frameCommand 0 afterMetatile (fun t => { t with status := t.status.setFrameValid }) s := rfl

/-- A SnapRead of RASTER leaves the count as it is; the palette's begins it at 0. -/
theorem raster_read_rasterCount (s : State) (off n : Nat) (next : List Byte → Pos)
    (h : action .raster s = .read off n next) (bytes : List Byte) :
    (next bytes).rasterCount = s.pos.rasterCount ∨ (next bytes).rasterCount = some 0 := by
  rw [action_raster] at h
  rcases frameCommand_read _ _ _ s off n next h with
    ⟨pal, mt, cells, hpos, -, -, rfl⟩ | ⟨pal, mt, cells, word, hpos, -, -, rfl⟩ | ⟨-, -, -, rfl⟩
  · exact .inl (by rw [hpos]; rfl)
  · exact .inl (by rw [hpos]; exact afterRecord_rasterCount _ _ _)
  · exact .inr rfl

/-! ### The newest pixels -/

theorem State.newestAreRaster_zero (s : State) : s.NewestAreRaster 0 := List.nil_prefix

theorem State.NewestAreRaster.of_frame_eq {s t : State} {k : Nat} (h : s.NewestAreRaster k) (hframe : t.frame = s.frame) :
    t.NewestAreRaster k := by
  rw [State.NewestAreRaster, hframe]
  exact h

theorem State.NewestAreRaster.accepted {s t : State} {k : Nat} (h : s.NewestAreRaster k) (c : RGB)
    (hframe : t.frame = ⟨rasterIndex k, c⟩ :: s.frame) : t.NewestAreRaster (k + 1) := by
  rw [State.NewestAreRaster, hframe, List.range_succ, List.map_append, List.reverse_append]
  exact (List.prefix_cons_inj _).2 h

/-! ### Every kind of step -/

theorem State.LeavesFrame.frameInv {s t : State} (h : s.LeavesFrame t) (hs : s.FrameInv) : t.FrameInv := by
  obtain ⟨hvalid, hcount⟩ := hs
  refine ⟨fun hfv => (hvalid (h.frameValid hfv)).of_frame_eq h.frame, fun k hk => ?_⟩
  rcases h.place with hpos | ⟨hlatch, hpos⟩
  · rw [t.rasterCount_of_start hpos] at hk
    cases hk
  · rw [State.rasterCount, hlatch, hpos] at hk
    exact (hcount k hk).of_frame_eq h.frame

/-- What a SnapRead that answers can lead to: its bytes' position, or the failure's. -/
theorem snapRead_next (s t : State) (off n : Nat) (next : List Byte → Pos) (h : snapRead off n next s = .next t) :
    ∃ p, t = { s with pos := p } ∧ (p = .failed .outOfRange off ∨ ∃ bytes, p = next bytes) := by
  rcases snapRead_cases s off n next with ⟨h1, -⟩ | ⟨h1, -⟩ | ⟨h1, -⟩ <;> rw [h1] at h <;> cases h
  · exact ⟨_, rfl, .inl rfl⟩
  · exact ⟨_, rfl, .inr ⟨_, rfl⟩⟩

/-- R253: a step of RASTER before its last one keeps count of the pixels. -/
theorem raster_step_newest (s t : State) (hfits : s.pos.Fits .raster) (hlast : ∀ u, action .raster s ≠ .last u)
    (hs : ∀ k, s.pos.rasterCount = some k → s.NewestAreRaster k) (h : coreStep .raster s = .next t) :
    ∀ k, t.pos.rasterCount = some k → t.NewestAreRaster k := by
  intro k hk
  rw [coreStep] at h
  cases ha : action .raster s with
  | last u => exact absurd ha (hlast u)
  | read off n next =>
    rw [ha] at h
    obtain ⟨p, rfl, rfl | ⟨bytes, rfl⟩⟩ := snapRead_next s t off n next h
    · cases hk
    · rcases raster_read_rasterCount s off n next ha bytes with hsame | hzero
      · exact hs k (hsame.symm.trans hk)
      · obtain rfl := Option.some.inj (hzero.symm.trans hk)
        exact State.newestAreRaster_zero _
  | write p c next =>
    rw [ha, perform] at h
    cases h
    rw [action_raster] at ha
    obtain ⟨pal, mt, cells, n, hpos, rfl, -, rfl⟩ := frameCommand_write _ _ _ s p c next ha
    rw [hpos] at hfits
    obtain ⟨hmt, -, -, -, hn⟩ := hfits
    rcases frameWrite_cases s _ c _ with ⟨h1, -⟩ | ⟨rest, -, h1⟩ | ⟨rest, -, h1⟩ <;> rw [h1] at hk ⊢
    · exact hs k hk
    · obtain rfl := Option.some.inj ((afterPixel_rasterCount pal mt cells n hmt hn).symm.trans hk)
      exact (hs (1024 * mt + n) (by rw [hpos]; rfl)).accepted c (by rw [rasterIndex_add mt n hn])
    · cases hk

theorem isFrameWord_of_decode (w : Word) (i : Instr) (hw : decode w = .ok i) : isFrameWord w = i.frame := by
  rw [isFrameWord, hw]
  cases i <;> rfl

/-- R235: with FRAME_VALID the command in flight has no FrameWrites, so its steps accept no pixel. -/
theorem coreStep_frame_of_frameValid (s t : State) (w : Word) (i : Instr) (hrun : s.Running w i)
    (hfv : s.status.frameValid = true) (h : coreStep i s = .next t) : t.frame = s.frame := by
  obtain ⟨hinv, hlatch, hw⟩ := hrun
  obtain ⟨-, -, hframeWord, -⟩ := hinv.inFlight w hlatch
  have hi : i.frame = false := by
    by_contra hi
    have hclear := hframeWord ((isFrameWord_of_decode w i hw).trans (Bool.not_eq_false _ ▸ hi))
    exact absurd (hclear.symm.trans hfv) (by decide)
  rw [coreStep] at h
  cases ha : action i s with
  | last u =>
    rw [ha] at h
    cases h
    obtain ⟨-, -, -, -, hframe, -⟩ := action_last i s _ ha
    exact hframe
  | read off n next =>
    rw [ha] at h
    obtain ⟨p, rfl, -⟩ := snapRead_next s t off n next h
    rfl
  | write p c next => exact absurd ha (action_ne_write i s hi p c next)

/-- The last step of a command: RASTER's completion finds all its pixels accepted, and every other leaves the frame alone. -/
theorem coreStep_last_frameInv (s t : State) (w : Word) (i : Instr) (hrun : s.Running w i) (hs : s.FrameInv)
    (h : action i s = .last t) : t.FrameInv := by
  obtain ⟨-, hstart, -, -, hframe, -⟩ := action_last i s t h
  rcases action_last_frameValid i s t h with hfv | ⟨rfl, hpos, -⟩
  · exact State.LeavesFrame.frameInv ⟨hframe, fun hset => hfv.symm.trans hset, .inl hstart⟩ hs
  · obtain ⟨-, hlatch, hw⟩ := hrun
    obtain ⟨-, hcount⟩ := hs
    have hall : s.rasterCount = some 262144 := by rw [s.rasterCount_of_raster w hlatch hw, hpos]; rfl
    refine ⟨fun _ => (hcount 262144 hall).of_frame_eq hframe, fun k hk => ?_⟩
    rw [t.rasterCount_of_start hstart] at hk
    cases hk

theorem coreStep_frameInv (s t : State) (w : Word) (i : Instr) (hrun : s.Running w i) (hs : s.FrameInv)
    (h : coreStep i s = .next t) : t.FrameInv := by
  by_cases hlast : ∃ u, action i s = .last u
  · obtain ⟨u, hu⟩ := hlast
    rw [coreStep, hu] at h
    cases h
    exact coreStep_last_frameInv s _ w i hrun hs hu
  have hnot := not_exists.1 hlast
  obtain ⟨hvalid, hcount⟩ := hs
  have hstatus : t.status = s.status := by rw [perform_not_last _ s t h hnot]
  obtain ⟨htinv, htlatch, -⟩ := coreStep_running w i hrun hnot h
  refine ⟨fun hfv => ?_, fun k hk => ?_⟩
  · rw [hstatus] at hfv
    exact (hvalid hfv).of_frame_eq (coreStep_frame_of_frameValid s t w i hrun hfv h)
  · obtain ⟨hinv, hlatch, hw⟩ := hrun
    by_cases hi : i = .raster
    · subst hi
      rw [t.rasterCount_of_raster w htlatch hw] at hk
      refine raster_step_newest s t ((hinv.inFlight w hlatch).fits hw) hnot (fun k hk => hcount k ?_) h k hk
      rw [s.rasterCount_of_raster w hlatch hw, hk]
    · rw [t.rasterCount_of_not_raster w i htlatch hw hi] at hk
      cases hk

/-- A run of a command is such steps, each from a state of the run. -/
theorem exec_frameInv (s t : State) (w : Word) (i : Instr) (hrun : s.Running w i) (hs : s.FrameInv)
    (h : exec i s = .next t) : t.FrameInv := by
  rw [exec_eq_run] at h
  refine runCommand_induct (action i) (fun u => u.Running w i ∧ u.FrameInv) State.FrameInv
    (fun u v ⟨hrunning, hu⟩ hv hgo => ?_) (fun u v ⟨hrunning, hu⟩ hv _ => coreStep_frameInv u v w i hrunning hu hv)
    (fun _ ⟨_, hu⟩ => hu) commandFuel s t ⟨hrun, hs⟩ h
  refine ⟨coreStep_running w i hrunning (fun x hx => ?_) hv, coreStep_frameInv u v w i hrunning hu hv⟩
  rw [hx] at hgo
  cases hgo

/-- Settles O11: a step that runs the command in flight keeps count of RASTER's pixels, and any other leaves the frame
alone. -/
theorem stepKeepsFrameInv : Obligations.StepKeepsFrameInv := by
  intro s t hinv hs hstep
  rcases step_frame_cases s t hstep with hleaves | ⟨sched, w, i, hlatch, hw, hruns⟩
  · exact hleaves.frameInv hs
  · have hrun : ({ s with sched := sched } : State).Running w i := ⟨hinv.hostSide sched s.replies, hlatch, hw⟩
    exact hruns.elim (coreStep_frameInv _ t w i hrun hs) (exec_frameInv _ t w i hrun hs)

end Sys2Proof.Machine
end

section
/-! The acceptance step (60_exceptions.md R301, R302): a CMD write while idle. -/
namespace Sys2Proof.Machine

theorem writeCmd_idle (w : Word) (s : State) (hb : s.status.busy = false) : writeCmd w s = s.accept w :=
  if_neg (Bool.eq_false_iff.1 hb)

/-- R235: the words that clear FRAME_VALID. -/
theorem isFrameWord_iff (w : Word) :
    isFrameWord w = true ↔ (∃ mt, decode w = .ok (.mtbuild mt)) ∨ decode w = .ok .raster := by
  rw [isFrameWord]
  cases decode w with
  | error e => simp
  | ok i => cases i <;> simp

/-- Settles O17: an idle CMD write is `State.accept`, which clears FRAME_VALID by `isFrameWord`. -/
theorem idleCmdWriteIsAccepted : Obligations.IdleCmdWriteIsAccepted := by
  intro s w rest hb hs
  refine ⟨(s.accept w).status.frameValid, fun hframe => ?_, fun hother => ?_, ?_⟩
  · rw [State.accept_status, Status.accept_frameValid, if_pos ((isFrameWord_iff w).2 hframe)]
  · rw [State.accept_status, Status.accept_frameValid, if_neg (mt (isFrameWord_iff w).1 hother)]
  · rw [step_regWrite s .cmd w rest hs, writeReg, writeCmd_idle w { s with sched := rest } hb]
    rfl

end Sys2Proof.Machine
end

section
/-! Which commands test VALID (60_exceptions.md R312). -/
namespace Sys2Proof.Machine

theorem frameCommand_notValid (first : Nat) (after : List Byte → Nat → Pos) (finish : State → State) (s : State)
    (hp : s.pos = .start) (hv : s.status.valid = false) :
    frameCommand first after finish s = .last (s.raise .notValidated 0) := by
  simp [frameCommand, hp, hv]

theorem actPalres_notValid (sel idx : Nat) (s : State) (hp : s.pos = .start) (hv : s.status.valid = false) :
    actPalres sel idx s = .last (s.raise .notValidated 0) := by
  rw [actPalres]
  split
  · rw [hv]; rfl
  · exact singleRead_notValid _ _ _ s hp hv

/-- What is common to NOP, CLRERR and TMDEC: VALID and ERRCODE stay, and VALID is carried through the command unread. -/
theorem exec_carries_valid (s : State) (i : Instr) (hi : i = .nop ∨ i = .clrerr ∨ ∃ word, i = .tmdec word) :
    ∃ t, exec i s = .next t ∧ t.status.valid = s.status.valid ∧ t.status.errCode = s.status.errCode ∧
      ∀ v, exec i { s with status := { s.status with valid := v } } =
        .next { t with status := { t.status with valid := v } } := by
  obtain rfl | rfl | ⟨word, rfl⟩ := hi
  · exact ⟨_, exec_last .nop s _ rfl, rfl, rfl, fun v => exec_last .nop _ _ rfl⟩
  · exact ⟨_, exec_last .clrerr s _ rfl, rfl, rfl, fun v => exec_last .clrerr _ _ rfl⟩
  · exact ⟨_, exec_last (.tmdec word) s _ rfl, rfl, rfl, fun v => exec_last (.tmdec word) _ _ rfl⟩

/-- VALIDATE overwrites VALID unread, and its only error is InvalidSize (40_control.md R142). -/
theorem exec_validate_overwrites_valid (s : State) :
    ∃ t, exec .validate s = .next t ∧ (t.status.errCode = s.status.errCode ∨ t.status.errCode = 1#4) ∧
      ∀ v, exec .validate { s with status := { s.status with valid := v } } = .next t := by
  cases hm : matchFormat s.cfg.val s.snapSize.toNat with
  | none => exact ⟨_, exec_validate_of_none s hm, .inr rfl, fun v => exec_validate_of_none _ hm⟩
  | some k => exact ⟨_, exec_validate_of_some s k hm, .inl rfl, fun v => exec_validate_of_some _ k hm⟩

/-- R312: a command that does not test VALID leaves ERRCODE as it was or reports InvalidSize. -/
theorem exec_errCode_without_valid_test (s : State) (i : Instr)
    (hi : i = .nop ∨ i = .validate ∨ i = .clrerr ∨ ∃ word, i = .tmdec word) :
    ∃ t, exec i s = .next t ∧ (t.status.errCode = s.status.errCode ∨ t.status.errCode = 1#4) := by
  obtain rfl | rfl | hi := hi
  · obtain ⟨t, ht, -, hcode, -⟩ := exec_carries_valid s .nop (.inl rfl)
    exact ⟨t, ht, .inl hcode⟩
  · obtain ⟨t, ht, hcode, -⟩ := exec_validate_overwrites_valid s
    exact ⟨t, ht, hcode⟩
  · obtain ⟨t, ht, -, hcode, -⟩ := exec_carries_valid s i (.inr hi)
    exact ⟨t, ht, .inl hcode⟩

/-- Settles O36: with VALID = 0 the first action of a memory command is the abort; the last action of the others is their
first, and VALID does not enter it. -/
theorem memoryCommandsNeedValid : Obligations.MemoryCommandsNeedValid := by
  refine ⟨fun s i hp hv hi => exec_last i s (s.raise .notValidated 0) ?_, fun s i herr hi => ?_, fun s i v hi => ?_,
    fun s v => ?_⟩
  · obtain ⟨mt, ent, rfl⟩ | ⟨tile, row, col, rfl⟩ | ⟨sel, idx, rfl⟩ | ⟨mt, rfl⟩ | rfl := hi
    · exact singleRead_notValid _ _ _ s hp hv
    · exact singleRead_notValid _ _ _ s hp hv
    · exact actPalres_notValid sel idx s hp hv
    · rw [action, actMtbuild, frameCommand_notValid _ _ _ s hp hv]
    · rw [action, actRaster, frameCommand_notValid _ _ _ s hp hv]
  · obtain ⟨t, ht, hcode⟩ := exec_errCode_without_valid_test s i hi
    refine ⟨t, ht, ?_⟩
    obtain hcode | hcode := hcode
    · rw [hcode, herr]; decide
    · rw [hcode]; decide
  · obtain ⟨t, ht, hvalid, -, hcarry⟩ := exec_carries_valid s i hi
    exact ⟨t, ht, hvalid, hcarry v⟩
  · obtain ⟨t, ht, -, hover⟩ := exec_validate_overwrites_valid s
    exact ⟨t, ht, hover v⟩

end Sys2Proof.Machine
end

section
/-! A build that takes `value` for an unwritten byte (70_reset_and_hazards.md R343): no step of the core faults, so nothing
stops the machine (60_exceptions.md R316). -/
namespace Sys2Proof.Machine

theorem perform_next_of_value (a : Action) (s : State) (hc : s.cfg.val.unwrittenSnapRead = .value) :
    ∃ t, perform a s = .next t := by
  cases a with
  | last t => exact ⟨t, rfl⟩
  | read off n next =>
    obtain ⟨hfail, -⟩ | ⟨-, hfault⟩ | ⟨hread, -⟩ := snapRead_cases s off n next
    · exact ⟨_, hfail⟩
    · rw [hc] at hfault; cases hfault
    · exact ⟨_, hread⟩
  | write p c next => exact ⟨_, rfl⟩

theorem coreStep_next_of_value (i : Instr) (s : State) (hc : s.cfg.val.unwrittenSnapRead = .value) :
    ∃ t, coreStep i s = .next t :=
  perform_next_of_value (action i s) s hc

theorem runCommand_next_of_value (i : Instr) (n : Nat) (s : State) (hc : s.cfg.val.unwrittenSnapRead = .value) :
    ∃ t, runCommand (action i) n s = .next t := by
  induction n generalizing s with
  | zero => exact ⟨s, rfl⟩
  | succ n ih =>
    obtain ⟨u, hu⟩ := coreStep_next_of_value i s hc
    cases hstop : (action i s).stops s with
    | true => exact ⟨u, runCommand_stop (action i) n s u hu hstop⟩
    | false =>
      obtain ⟨hcfg, -⟩ := coreStep_sameOutside i s u hu
      rw [runCommand_go (action i) n s u hu hstop]
      exact ih u (by rw [hcfg, hc])

theorem exec_next_of_value (i : Instr) (s : State) (hc : s.cfg.val.unwrittenSnapRead = .value) :
    ∃ t, exec i s = .next t := by
  rw [exec_eq_run]
  exact runCommand_next_of_value i commandFuel s hc

/-- The core's move stops only where the command in flight does. -/
theorem withLatched_next (f : Instr → State → Result) (s : State) (hf : ∀ i, ∃ t, f i s = .next t) :
    ∃ t, withLatched f s = .next t := by
  rw [withLatched]
  split
  · exact ⟨s, rfl⟩
  · split
    · exact hf _
    · exact ⟨_, rfl⟩

theorem move_next_of_value (m : Move) (s : State) (hc : s.cfg.val.unwrittenSnapRead = .value) :
    ∃ t, move m s = .next t := by
  cases m with
  | host a => exact ⟨_, rfl⟩
  | core => exact withLatched_next coreStep s fun i => coreStep_next_of_value i s hc
  | run => exact withLatched_next exec s fun i => exec_next_of_value i s hc
  | wait gaps => exact ⟨_, rfl⟩
  | powerOn => exact ⟨_, rfl⟩

/-- Settles O49: a fault can come only from a SnapRead, and on such a build none answers one. -/
theorem valueBuildsNeverStop : Obligations.ValueBuildsNeverStop := by
  refine ⟨fun s i hc => exec_next_of_value i s hc, fun s hc => ?_⟩
  rw [State.StepSafe]
  cases hs : s.sched with
  | nil =>
    rw [step_unscheduled s hs]
    exact move_next_of_value .run s hc
  | cons m rest =>
    rw [step_move s m rest hs]
    exact move_next_of_value m { s with sched := rest } hc

end Sys2Proof.Machine
end

section
/-! When a command's registers change and when it ends (20_memory.md R77 c, 70_reset_and_hazards.md R353, R361): a step that
is not the last writes none of them, and a command without FrameWrites always comes to its last. -/
namespace Sys2Proof.Machine

/-- Settles O16: the last step empties the latch, and any other moves the position and the sink's two lists only. -/
theorem resultsAppearOnlyAtTheEnd : Obligations.ResultsAppearOnlyAtTheEnd := by
  intro s t w i _ hstep hflying
  refine perform_not_last (action i s) s t hstep fun u hu => ?_
  rw [coreStep, hu] at hstep
  cases hstep
  obtain ⟨hlatch, -⟩ := action_last i s _ hu
  exact hflying hlatch

/-- Settles O47: such a command's run comes to its last action. -/
theorem commandsWithoutWritesEnd : Obligations.CommandsWithoutWritesEnd := by
  intro s t i hi hexec
  obtain ⟨p, hlast⟩ := exec_ends_with_last i s t hi hexec
  obtain ⟨hlatch, hpos, hbusy, -⟩ := action_last i _ t hlast
  exact ⟨hlatch, hpos, hbusy⟩

end Sys2Proof.Machine
end

section
/-! A sink that stops answering (70_reset_and_hazards.md R361): MTBUILD and RASTER come to the FrameWrite it leaves unanswered
and stay there. -/
namespace Sys2Proof.Machine

/-- R361: a frame command that awaits an answer from a silent sink stays as it is, step after step. -/
theorem step_writing_silent (s : State) (w : Word) (i : Instr) (pal : List Byte) (mt : Nat) (cells : List Cell) (n : Nat)
    (hl : s.latch = some w) (hw : decode w = .ok i) (hi : i.frame = true) (hsched : s.sched = [])
    (hpos : s.pos = .writing pal mt cells n) (hsink : s.sink = []) : step s = .next s := by
  obtain ⟨first, after, finish, hact, -⟩ := action_frame i hi
  rw [step_unscheduled s hsched, runMove, withLatched_command exec s w i hl hw, exec_eq_run, commandFuel_eq, hact]
  exact runCommand_write_silent _ _ s _ _ _ (frameCommand_writing first after finish s pal mt cells n hpos) hsink

/-- A sink that is silent after `n` pixels of a metatile: the run stops at FrameWrite number `n`. -/
theorem runCommand_writeWaits (first : Nat) (after : List Byte → Nat → Pos) (finish : State → State) (k n : Nat)
    (s : State) (mt : Nat) (hn : n < 1024) (hs : s.pos = .reading (s.snapBytes s.paletteOffset 256) mt [])
    (hread : s.MetatileReadable mt) (hsink : s.sink = List.replicate n .ok) :
    runCommand (frameCommand first after finish) (k + 1057) s =
      .next { s with pos := .writing (s.snapBytes s.paletteOffset 256) mt ((List.range 16).map (s.cell mt)) n
                     sink := [], frame := (s.metatilePixels mt n).reverse ++ s.frame } := by
  rw [show k + 1057 = (k + (1023 - n) + 1 + 1 + n) + 32 by omega,
    runCommand_readMetatile first after finish _ s _ mt hs hread]
  refine (runCommand_emitTo first after finish _ n
    { s with pos := .writing (s.snapBytes s.paletteOffset 256) mt ((List.range 16).map (s.cell mt)) 0 }
    mt [] hn rfl (by rw [List.append_nil]; exact hsink)).trans ?_
  exact runCommand_write_silent _ _ _ _ _ _ (frameCommand_writing first after finish _ _ mt _ n rfl) rfl

/-- A sink that is silent after `n` pixels of MTBUILD: the run stops there. -/
theorem exec_mtbuild_writeWaits (s : State) (mt n : Nat) (hp : s.pos = .start) (hv : s.status.valid = true)
    (hn : n < 1024) (hpal : s.Readable s.paletteOffset 256) (hread : s.MetatileReadable mt)
    (hsink : s.sink = List.replicate n .ok) :
    exec (.mtbuild mt) s =
      .next { s with pos := .writing (s.snapBytes s.paletteOffset 256) mt ((List.range 16).map (s.cell mt)) n
                     sink := [], frame := (s.metatilePixels mt n).reverse ++ s.frame } := by
  rw [exec_mtbuild_eq_run s mt hp hv hpal]
  exact runCommand_writeWaits mt _ _ 269280 n { s with pos := .reading (s.snapBytes s.paletteOffset 256) mt [] } mt hn rfl
    hread hsink

/-- Settles O42: the run stops at FrameWrite number `n`, which the silent sink leaves unanswered for ever. -/
theorem silentSinkHangsMtbuild : Obligations.SilentSinkHangsMtbuild := by
  intro s w mt n hl hw hsched hp hv hn hpal hread hsink
  exact ⟨_, exec_mtbuild_writeWaits s mt n hp hv hn hpal hread hsink,
    step_writing_silent _ w (.mtbuild mt) _ mt _ n hl hw rfl hsched rfl rfl, rfl⟩

/-- A sink that is silent after the first `n` pixels of RASTER's metatile `i`: the run stops there. -/
theorem exec_raster_writeWaits (s : State) (i n : Nat) (hp : s.pos = .start) (hv : s.status.valid = true) (hi : i < 256)
    (hn : n < 1024) (hpal : s.Readable s.paletteOffset 256) (hread : ∀ mt, mt ≤ i → s.MetatileReadable mt)
    (hsink : s.sink = List.replicate (1024 * i + n) .ok) :
    exec .raster s =
      .next { s with pos := .writing (s.snapBytes s.paletteOffset 256) i ((List.range 16).map (s.cell i)) n
                     sink := [], frame := (s.rasterPixels (1024 * i + n)).reverse ++ s.frame } := by
  rw [exec_raster_eq_run (269280 - 1056 * i + 1057) i s (List.replicate n .ok) (by omega) hp hv hi hpal
      (fun mt hmt => hread mt hmt.le) (by rw [hsink, List.replicate_add]),
    ← s.rasterPixels_reverse_add i n hn.le]
  exact runCommand_writeWaits 0 _ _ (269280 - 1056 * i) n
    { s with pos := .reading (s.snapBytes s.paletteOffset 256) i [], sink := List.replicate n .ok
             frame := (s.rasterPixels (1024 * i)).reverse ++ s.frame }
    i hn rfl (hread i (le_refl _)) rfl

/-- Settles O60: pixel `k` is FrameWrite number `k % 1024` of metatile `k / 1024`, where the run stops for ever. -/
theorem silentSinkHangsRaster : Obligations.SilentSinkHangsRaster := by
  intro s w k hl hw hsched hp hv hk hpal hread hsink
  have hrun := exec_raster_writeWaits s (k / 1024) (k % 1024) hp hv (by omega) (by omega) hpal hread
    (by rw [Nat.div_add_mod, hsink])
  rw [Nat.div_add_mod] at hrun
  exact ⟨_, hrun, step_writing_silent _ w .raster _ (k / 1024) _ (k % 1024) hl hw rfl hsched rfl rfl, rfl⟩

end Sys2Proof.Machine
end

section
/-! MTBUILD and RASTER under a sink that answers every FrameWrite (70_reset_and_hazards.md R361): each step takes one off the
memory events still to come, so the run comes to its last step within its fuel. -/
namespace Sys2Proof

/-- How many metatiles a frame command emits after metatile `mt`: RASTER those up to 255, MTBUILD none (R236, R253). -/
def Instr.metatilesAfter (i : Instr) (mt : Nat) : Nat :=
  if i = .raster then 255 - mt else 0

end Sys2Proof

namespace Sys2Proof.Machine

/-! ### The memory events still to come -/

/-- The SnapReads of a frame command still to come, unless one fails: two for each cell, and at the start the palette's
(R232). -/
def Pos.readsLeft (i : Instr) : Pos → Nat
  | .start => 32 * (i.metatilesAfter 0 + 1) + 1
  | .got _ => 0
  | .reading _ mt cells => 32 * i.metatilesAfter mt + 2 * (16 - cells.length)
  | .record _ mt cells _ => 32 * i.metatilesAfter mt + 2 * (15 - cells.length) + 1
  | .writing _ mt _ _ => 32 * i.metatilesAfter mt
  | .emitted => 0
  | .failed _ _ => 0

/-- Its FrameWrites still to come, unless an event fails: 1024 for each metatile (R236). -/
def Pos.writesLeft (i : Instr) : Pos → Nat
  | .start => 1024 * (i.metatilesAfter 0 + 1)
  | .got _ => 0
  | .reading _ mt _ => 1024 * (i.metatilesAfter mt + 1)
  | .record _ mt _ _ => 1024 * (i.metatilesAfter mt + 1)
  | .writing _ mt _ n => 1024 * i.metatilesAfter mt + (1024 - n)
  | .emitted => 0
  | .failed _ _ => 0

/-- Its memory events still to come. -/
def Pos.eventsLeft (i : Instr) (p : Pos) : Nat :=
  p.readsLeft i + p.writesLeft i

/-- The event an action performs at position `p` is one of those to come: its success takes just that one off. -/
def Action.CountsDown (i : Instr) (p : Pos) : Action → Prop
  | .last _ => True
  | .read _ _ next =>
    ∀ bytes, (next bytes).readsLeft i + 1 = p.readsLeft i ∧ (next bytes).writesLeft i = p.writesLeft i
  | .write _ _ next => next.readsLeft i = p.readsLeft i ∧ next.writesLeft i + 1 = p.writesLeft i

/-- After a metatile's last cell come its FrameWrites, after any other the next cell. -/
theorem afterRecord_eventsLeft (i : Instr) (pal : List Byte) (mt : Nat) (cells : List Cell) (c : Cell)
    (hlen : cells.length < 16) :
    (afterRecord pal mt (cells ++ [c])).readsLeft i = 32 * i.metatilesAfter mt + 2 * (15 - cells.length) ∧
      (afterRecord pal mt (cells ++ [c])).writesLeft i = 1024 * (i.metatilesAfter mt + 1) := by
  have hl : (cells ++ [c]).length = cells.length + 1 := List.length_append
  rw [afterRecord, hl]
  split
  · rw [Pos.readsLeft, Pos.writesLeft, hl]
    omega
  · rw [Pos.readsLeft, Pos.writesLeft]
    omega

/-- After a metatile's last FrameWrite the events of the metatiles after it remain, after any other also its own. -/
theorem afterPixel_eventsLeft (i : Instr) (after : Pos) (pal : List Byte) (mt : Nat) (cells : List Cell) (n : Nat)
    (hn : n < 1024)
    (hafter : after.readsLeft i = 32 * i.metatilesAfter mt ∧ after.writesLeft i = 1024 * i.metatilesAfter mt) :
    (afterPixel after pal mt cells n).readsLeft i = 32 * i.metatilesAfter mt ∧
      (afterPixel after pal mt cells n).writesLeft i + 1 = 1024 * i.metatilesAfter mt + (1024 - n) := by
  obtain ⟨hreads, hwrites⟩ := hafter
  rw [afterPixel]
  split
  · rw [Pos.readsLeft, Pos.writesLeft]
    omega
  · omega

theorem readBytes_of_frame (i : Instr) (hi : i.frame = true) : i.readBytes = none := by
  cases i with
  | nop | validate | clrerr | tmdec | tmfetch | pixidx | palres => cases hi
  | mtbuild | raster => rfl

/-- R236, R253: at each position of the command its action performs one of the events to come, if `after` leaves those of
the metatiles after the one emitted. -/
theorem frameCommand_countsDown (i : Instr) (first : Nat) (after : List Byte → Nat → Pos) (finish : State → State)
    (s : State) (hi : i.frame = true) (hfirst : i.metatilesAfter first = i.metatilesAfter 0)
    (hafter : ∀ pal mt, i.emits mt → (after pal mt).readsLeft i = 32 * i.metatilesAfter mt ∧
      (after pal mt).writesLeft i = 1024 * i.metatilesAfter mt)
    (hs : s.pos.Fits i) : (frameCommand first after finish s).CountsDown i s.pos := by
  cases hp : s.pos with rw [hp] at hs
  | start =>
    cases hv : s.status.valid with
    | false => rw [frameCommand_notValid first after finish s hp hv]; trivial
    | true =>
      rw [frameCommand_start first after finish s hp hv]
      intro pal
      rw [Pos.readsLeft, Pos.writesLeft, ← hfirst]
      exact ⟨rfl, rfl⟩
  | got bytes => rw [Pos.Fits, readBytes_of_frame i hi] at hs; cases hs
  | reading pal mt cells =>
    obtain ⟨-, -, hlen, -⟩ := hs
    rw [frameCommand_reading first after finish s pal mt cells hp]
    refine fun bytes => ⟨?_, rfl⟩
    rw [Pos.readsLeft, Pos.readsLeft]
    omega
  | record pal mt cells word =>
    obtain ⟨-, -, hlen, -⟩ := hs
    rw [frameCommand_record first after finish s pal mt cells word hp]
    intro bytes
    obtain ⟨hreads, hwrites⟩ := afterRecord_eventsLeft i pal mt cells ⟨word, bytes⟩ hlen
    exact ⟨congrArg (· + 1) hreads, hwrites⟩
  | writing pal mt cells n =>
    obtain ⟨hmt, -, -, -, hn⟩ := hs
    rw [frameCommand_writing first after finish s pal mt cells n hp]
    exact afterPixel_eventsLeft i _ pal mt cells n hn (hafter pal mt hmt)
  | emitted => simp only [frameCommand, hp]; trivial
  | failed e info => simp only [frameCommand, hp]; trivial

theorem action_countsDown (i : Instr) (s : State) (hi : i.frame = true) (hs : s.pos.Fits i) :
    (action i s).CountsDown i s.pos := by
  cases i with
  | nop | validate | clrerr | tmdec | tmfetch | pixidx | palres => cases hi
  | mtbuild mt =>
    exact frameCommand_countsDown (.mtbuild mt) mt (fun _ _ => .emitted) (fun t => t) s rfl rfl
      (fun _ _ _ => ⟨rfl, rfl⟩) hs
  | raster =>
    rw [action_raster]
    refine frameCommand_countsDown .raster 0 afterMetatile _ s rfl rfl (fun pal mt hmt => ?_) hs
    have hlt : mt < 256 := hmt
    rw [afterMetatile]
    split <;> simp only [Pos.readsLeft, Pos.writesLeft, Instr.metatilesAfter, if_true, List.length_nil] <;> omega

/-! ### The run -/

/-- A state of a frame command's run with an answer to come for each FrameWrite to come. -/
def State.Answered (s : State) (i : Instr) : Prop :=
  s.pos.Fits i ∧ s.pos.writesLeft i ≤ s.sink.length

/-- While the sink answers, a step that is not the last one does not wait, and the events to come get fewer. -/
theorem coreStep_answered (i : Instr) (s t : State) (hi : i.frame = true) (hs : s.Answered i)
    (hlast : ∀ u, action i s ≠ .last u) (h : coreStep i s = .next t) :
    (action i s).stops s = false ∧ t.Answered i ∧ t.pos.eventsLeft i < s.pos.eventsLeft i := by
  obtain ⟨hfits, hsink⟩ := hs
  have htfits : t.pos.Fits i := perform_fits i _ s t (action_fits i s hfits) hlast hfits h
  have hdown := action_countsDown i s hi hfits
  rw [coreStep] at h
  cases ha : action i s with rw [ha] at h hdown
  | last u => exact absurd ha (hlast u)
  | read off n next =>
    obtain ⟨p, rfl, rfl | ⟨bytes, rfl⟩⟩ := snapRead_next s t off n next h
    · obtain ⟨hreads, -⟩ := hdown []
      refine ⟨rfl, ⟨htfits, Nat.zero_le _⟩, ?_⟩
      change 0 < s.pos.eventsLeft i
      rw [Pos.eventsLeft]
      omega
    · obtain ⟨hreads, hwrites⟩ := hdown bytes
      refine ⟨rfl, ⟨htfits, hwrites.trans_le hsink⟩, ?_⟩
      simp only [Pos.eventsLeft]
      omega
  | write p c next =>
    obtain ⟨hreads, hwrites⟩ := hdown
    rw [perform] at h
    cases h
    rcases frameWrite_cases s p c next with ⟨-, hs⟩ | ⟨rest, hs, h1⟩ | ⟨rest, hs, h1⟩
    · rw [hs, List.length_nil] at hsink
      omega
    · rw [h1] at htfits ⊢
      rw [hs, List.length_cons] at hsink
      refine ⟨by rw [Action.stops, hs]; rfl, ⟨htfits, by simp only; omega⟩, ?_⟩
      simp only [Pos.eventsLeft]
      omega
    · rw [h1] at htfits ⊢
      refine ⟨by rw [Action.stops, hs]; rfl, ⟨htfits, Nat.zero_le _⟩, ?_⟩
      change 0 < s.pos.eventsLeft i
      rw [Pos.eventsLeft]
      omega

/-- Such a run, with a step of fuel for each event to come and one more, ends with the command's last step. -/
theorem runCommand_answered (i : Instr) (hi : i.frame = true) (n : Nat) (s t : State) (hs : s.Answered i)
    (hn : s.pos.eventsLeft i < n) (h : runCommand (action i) n s = .next t) : ∃ u, action i u = .last t := by
  induction n generalizing s with
  | zero => omega
  | succ n ih =>
    by_cases hlast : ∃ u, action i s = .last u
    · obtain ⟨u, hu⟩ := hlast
      rw [runCommand_last (action i) n s u hu] at h
      cases h
      exact ⟨s, hu⟩
    · cases hstep : coreStep i s with
      | next u =>
        obtain ⟨hgo, hu, hless⟩ := coreStep_answered i s u hi hs (not_exists.1 hlast) hstep
        rw [runCommand_go (action i) n s u hstep hgo] at h
        exact ih u hu (by omega) h
      | fault r =>
        rw [runCommand_fault (action i) n s r hstep] at h
        cases h
      | refused r => exact absurd hstep (perform_ne_refused _ s r)

/-- At the start at most RASTER's 270337 events are to come (R361). -/
theorem Pos.eventsLeft_start (i : Instr) : Pos.start.eventsLeft i < commandFuel := by
  have hafter : i.metatilesAfter 0 ≤ 255 := by
    rw [Instr.metatilesAfter]
    split <;> decide
  rw [Pos.eventsLeft, Pos.readsLeft, Pos.writesLeft, commandFuel]
  omega

/-- Settles O48: from the start there are as many answers as FrameWrites to come, and fuel for every event. -/
theorem frameCommandsEndWhileTheSinkAnswers : Obligations.FrameCommandsEndWhileTheSinkAnswers := by
  intro s t i hp hanswers hexec
  obtain ⟨hi, hsink⟩ : i.frame = true ∧ Pos.start.writesLeft i ≤ s.sink.length := by
    rcases hanswers with ⟨⟨mt, rfl⟩, hsink⟩ | ⟨rfl, hsink⟩ <;> exact ⟨rfl, hsink⟩
  have hanswered : s.Answered i := by rw [State.Answered, hp]; exact ⟨trivial, hsink⟩
  have hfuel : s.pos.eventsLeft i < commandFuel := by rw [hp]; exact Pos.eventsLeft_start i
  rw [exec_eq_run] at hexec
  obtain ⟨u, hlast⟩ := runCommand_answered i hi commandFuel s t hanswered hfuel hexec
  obtain ⟨hlatch, hpos, hbusy, -⟩ := action_last i u t hlast
  exact ⟨hlatch, hpos, hbusy⟩

end Sys2Proof.Machine
end

section
/-! What a step does by its next move (60_exceptions.md R300, R334, 20_memory.md R77 a): the command in flight is run, a host
access performed, and an idle block stays as it is. -/
namespace Sys2Proof.Machine

theorem step_core_command (s : State) (w : Word) (i : Instr) (rest : List Move) (h : s.sched = .core :: rest)
    (hl : s.latch = some w) (hw : decode w = .ok i) : step s = coreStep i { s with sched := rest } := by
  rw [step_move s .core rest h]
  exact withLatched_command coreStep { s with sched := rest } w i hl hw

/-- Settles O12: whatever the move, the core acts for the command in the latch. -/
theorem stepRunsLatchedCommand : Obligations.StepRunsLatchedCommand := by
  intro s w i hl hw
  refine ⟨fun hs => ?_, fun rest hs => step_run_command s w i rest hs hl hw,
    fun rest hs => step_core_command s w i rest hs hl hw⟩
  rw [step_unscheduled s hs]
  exact withLatched_command exec s w i hl hw

/-- The four lanes of a word make up the word again (10_state.md R24). -/
theorem decodeBytes_laneBytes (w : Word) : decodeBytes (laneBytes w) = decode w := by
  have hlanes : wordOfLanes (w.extractLsb' 0 8) (w.extractLsb' 8 8) (w.extractLsb' 16 8) (w.extractLsb' 24 8) = w := by
    rw [wordOfLanes, BitVec.extractLsb'_append_extractLsb'_eq_extractLsb' (show 24 = 16 + 8 from rfl),
      BitVec.extractLsb'_append_extractLsb'_eq_extractLsb' (show 16 = 8 + 8 from rfl),
      BitVec.extractLsb'_append_extractLsb'_eq_extractLsb' (show 8 = 0 + 8 from rfl)]
    exact BitVec.extractLsb'_eq_self
  rw [laneBytes, decodeBytes, hlanes]

theorem decode_of_decodeTableWord (nbits w : Nat) (i : Instr) (h : decodeTableWord nbits w = some i) :
    decode (BitVec.ofNat 32 (w % 2 ^ nbits)) = .ok i := by
  rw [decodeTableWord, decodeBytes_laneBytes] at h
  split at h
  · cases h
    assumption
  · cases h

/-- The acceptance of a word that decodes (R301, R302, 44_metatile_combiner.md R235). -/
theorem State.accept_command (s : State) (w : Word) (i : Instr) (hw : decode w = .ok i) : s.accept w = { s with
    latch := some w, pos := .start, errAddr := 0#32
    status := { s.status with
      busy := true, done := false, err := false, errCode := 0#4
      frameValid := s.status.frameValid && !i.frame } } := by
  rw [State.accept, Status.accept, isFrameWord_of_decode w i hw]
  cases i.frame <;> simp

/-- Settles O13: `withFetchWord` accepts the word and schedules the core's run. -/
theorem issuedCommandRunsNext : Obligations.IssuedCommandRunsNext := by
  intro s nbits w i h
  have hw := decode_of_decodeTableWord nbits w i h
  rw [← State.accept_command s _ i hw]
  exact step_run_command (s.withFetchWord nbits w) _ i s.sched rfl rfl hw

theorem withLatched_idle (f : Instr → State → Result) (s : State) (hl : s.latch = none) : withLatched f s = .next s := by
  rw [withLatched, hl]

/-- Settles O14: the head of the schedule is performed, and the core does nothing without a command in flight. -/
theorem stepTakesTheNextMove : Obligations.StepTakesTheNextMove := by
  refine ⟨step_host, fun s hs hl => ?_, fun s m rest hm hs hl => ?_⟩
  · rw [step_unscheduled s hs]
    exact withLatched_idle exec s hl
  · rw [step_move s m rest hs]
    rcases hm with rfl | rfl
    · exact withLatched_idle coreStep { s with sched := rest } hl
    · exact withLatched_idle exec { s with sched := rest } hl

end Sys2Proof.Machine
end

section
/-! The soft reset of a running command (70_reset_and_hazards.md R341). -/
namespace Sys2Proof.Machine

/-- Log 8: the answer to an outstanding FrameWrite is the sink's next one, and is ignored. -/
theorem State.answersAfterStop_writing (s : State) (h : ∃ pal mt cells n, s.pos = .writing pal mt cells n) :
    s.answersAfterStop = s.sink.tail := by
  obtain ⟨pal, mt, cells, n, hp⟩ := h
  rw [State.answersAfterStop, hp]

theorem State.answersAfterStop_other (s : State) (h : ¬ ∃ pal mt cells n, s.pos = .writing pal mt cells n) :
    s.answersAfterStop = s.sink := by
  rw [State.answersAfterStop]
  split
  · exact absurd ⟨_, _, _, _, ‹_›⟩ h
  · rfl

/-- Settles O8: the step is `State.softReset`, at every position of the command. -/
theorem softResetStopsTheCommand : Obligations.SoftResetStopsTheCommand := by
  intro s v rest hv hs
  exact ⟨_, step_softReset s v rest hv hs, rfl, rfl, rfl, rfl, rfl, rfl, rfl,
    State.answersAfterStop_writing { s with sched := rest }, State.answersAfterStop_other { s with sched := rest }⟩

end Sys2Proof.Machine
end

section
/-! Properties of the plane decoder (42_plane_decoder.md R185). -/
namespace Sys2Proof.Machine

theorem byteAt_replicate (n k : Nat) (b : Byte) (h : k < n) : byteAt (List.replicate n b) k = b.toNat := by
  simp [byteAt, List.getD, h]

/-- R182 of a whole record: a plane's bit is the column's bit of the stored byte that holds the row. -/
theorem planeBit_eq_byteAt (swapped : Bool) (s : List Byte) (p r c : Nat) (hlen : s.length = 32) (hp : p < 4)
    (hr : r < 8) : planeBit swapped s p r c =
      byteAt s (16 * (p / 2) + 2 * r + if (p % 2 == 0) == swapped then 1 else 0) / 2 ^ (7 - c) % 2 := by
  rw [planeBit, plane_eq_byteAt swapped s p r (by omega), Nat.shiftRight_eq_div_pow, Nat.and_one_is_mod]

/-- Where the four plane bits of a pixel are equal, the pair order does not matter: they give index 0 or 15. -/
theorem pixelIndex_of_equal_bits (swapped : Bool) (s : List Byte) (r c b : Nat) (hlen : s.length = 32) (hr : r < 8)
    (h : ∀ k ∈ [2 * r, 2 * r + 1, 16 + 2 * r, 17 + 2 * r], byteAt s k / 2 ^ (7 - c) % 2 = b) :
    pixelIndex swapped s r c = 15 * b := by
  have hbit : ∀ p, p < 4 → planeBit swapped s p r c = b := fun p hp => by
    rw [planeBit_eq_byteAt swapped s p r c hlen hp hr]
    refine h _ ?_
    simp only [List.mem_cons, List.not_mem_nil, or_false]
    split <;> omega
  rw [pixelIndex, hbit 0 (by decide), hbit 1 (by decide), hbit 2 (by decide), hbit 3 (by decide)]
  omega

/-- A record of 32 equal bytes: the pixel's four plane bits are one bit of that byte. -/
theorem pixelIndex_replicate (swapped : Bool) (v : Byte) (r c : Nat) (hr : r < 8) :
    pixelIndex swapped (List.replicate 32 v) r c = 15 * (v.toNat / 2 ^ (7 - c) % 2) := by
  refine pixelIndex_of_equal_bits swapped _ r c _ List.length_replicate hr fun k hk => ?_
  have hk32 : k < 32 := by
    simp only [List.mem_cons, List.not_mem_nil, or_false] at hk
    omega
  rw [byteAt_replicate 32 k v hk32]

/-- Settles O54: an index has four bits, and in each of the three records the pixel's are equal. -/
theorem planeDecoderProperties : Obligations.PlaneDecoderProperties := by
  intro swapped r c hr hc
  have hones : ∀ c < 8, 15 * ((0xFF#8).toNat / 2 ^ (7 - c) % 2) = 15 := by decide
  refine ⟨fun s => Nat.le_of_lt_succ (pixelIndex_lt swapped s r c), ?_, ?_,
    fun s hlen h => pixelIndex_of_equal_bits swapped s r c 1 hlen hr h⟩
  · rw [pixelIndex_replicate swapped _ r c hr]
    simp
  · rw [pixelIndex_replicate swapped _ r c hr, hones c hc]

end Sys2Proof.Machine
end

section
/-! A command's run as single steps of the core (60_exceptions.md R300, R306): no step of the core looks at the schedule, so
the same actions are performed whether one move runs the command or each step of it is a move. -/
namespace Sys2Proof.Machine

/-! ### The schedule beside a step of the core -/

/-- The same outcome with schedule `sched`. -/
def Result.withSched (sched : List Move) : Result → Result
  | .next t => .next { t with sched := sched }
  | .fault r => .fault r
  | .refused r => .refused r

/-- The same action with schedule `sched`. -/
def Action.withSched (sched : List Move) : Action → Action
  | .last t => .last { t with sched := sched }
  | .read off n next => .read off n next
  | .write p colour next => .write p colour next

theorem singleRead_withSched (off n : Nat) (result result' : List Byte → State) (s : State) (sched : List Move)
    (hresult : ∀ bytes, result' bytes = { result bytes with sched := sched }) :
    singleRead off n result' { s with sched := sched } = (singleRead off n result s).withSched sched := by
  simp only [singleRead, hresult]
  split
  · rfl
  · rfl
  · split <;> rfl

theorem frameCommand_withSched (first : Nat) (after : List Byte → Nat → Pos) (finish : State → State) (s : State)
    (sched : List Move) (hfinish : finish { s with sched := sched } = { finish s with sched := sched }) :
    frameCommand first after finish { s with sched := sched } = (frameCommand first after finish s).withSched sched := by
  simp only [frameCommand, hfinish]
  split
  · rfl
  · rfl
  · rfl
  · rfl
  · rfl
  · split <;> rfl

/-- Which action comes next does not depend on the schedule, and a last action leaves the schedule alone. -/
theorem action_withSched (i : Instr) (s : State) (sched : List Move) :
    action i { s with sched := sched } = (action i s).withSched sched := by
  cases i with
  | nop | clrerr | tmdec word => rfl
  | validate =>
    simp only [action, actValidate]
    split <;> rfl
  | tmfetch mt ent => exact singleRead_withSched _ _ _ _ s sched fun _ => rfl
  | pixidx tile row col => exact singleRead_withSched _ _ _ _ s sched fun _ => rfl
  | palres sel idx =>
    simp only [action, actPalres]
    split
    · split <;> rfl
    · exact singleRead_withSched _ _ _ _ s sched fun _ => rfl
  | mtbuild mt => exact frameCommand_withSched mt (fun _ _ => .emitted) (fun t => t) s sched rfl
  | raster =>
    exact frameCommand_withSched 0 afterMetatile (fun t => { t with status := t.status.setFrameValid }) s sched rfl

theorem snapRead_withSched (off n : Nat) (next : List Byte → Pos) (s : State) (sched : List Move) :
    snapRead off n next { s with sched := sched } = (snapRead off n next s).withSched sched := by
  rw [snapRead, snapRead, apply_ite (Result.withSched sched), apply_ite (Result.withSched sched)]
  rfl

theorem frameWrite_withSched (p : Nat) (c : RGB) (next : Pos) (s : State) (sched : List Move) :
    frameWrite p c next { s with sched := sched } = { frameWrite p c next s with sched := sched } := by
  simp only [frameWrite]
  split
  · rfl
  · rfl
  · rfl

theorem perform_withSched (a : Action) (s : State) (sched : List Move) :
    perform (a.withSched sched) { s with sched := sched } = (perform a s).withSched sched := by
  cases a with
  | last t => rfl
  | read off n next => exact snapRead_withSched off n next s sched
  | write p c next => exact congrArg Host.Outcome.next (frameWrite_withSched p c next s sched)

theorem coreStep_withSched (i : Instr) (s : State) (sched : List Move) :
    coreStep i { s with sched := sched } = (coreStep i s).withSched sched := by
  rw [coreStep, coreStep, action_withSched, perform_withSched]

/-! ### The run -/

theorem Action.not_last_of_go (a : Action) (s : State) (h : a.stops s = false) (t : State) : a ≠ .last t := by
  rintro rfl
  cases h

/-- One move of the core, at the head of any schedule, is one step of the core. -/
theorem step_core_withSched (s : State) (w : Word) (i : Instr) (sched : List Move) (hl : s.latch = some w)
    (hw : decode w = .ok i) : step { s with sched := .core :: sched } = (coreStep i s).withSched sched :=
  (step_core_command { s with sched := .core :: sched } w i sched rfl hl hw).trans (coreStep_withSched i s sched)

/-- With a command in flight, some number of moves of the core does what a run of its actions does, by induction on the
run's fuel: one move for each action, up to the one that stops the run. -/
theorem coreMoves_run (w : Word) (i : Instr) (rest : List Move) (hw : decode w = .ok i) (fuel : Nat) (s : State)
    (hl : s.latch = some w) :
    ∃ n, Host.Core.run Sys2Proof.core n ({ s with sched := List.replicate n .core ++ rest } : State) =
      (runCommand (action i) fuel s).withSched rest := by
  induction fuel generalizing s with
  | zero => exact ⟨0, rfl⟩
  | succ fuel ih =>
    have hstep := fun n => step_core_withSched s w i (List.replicate n .core ++ rest) hl hw
    cases hcore : coreStep i s with
    | next t =>
      rw [hcore] at hstep
      cases hstop : (action i s).stops s with
      | true =>
        rw [runCommand_stop (action i) fuel s t hcore hstop]
        exact ⟨1, core_run_next 0 _ _ (hstep 0)⟩
      | false =>
        rw [runCommand_go (action i) fuel s t hcore hstop]
        have hlatch : t.latch = some w := by
          rw [perform_not_last _ s t hcore ((action i s).not_last_of_go s hstop)]
          exact hl
        obtain ⟨n, hn⟩ := ih t hlatch
        exact ⟨n + 1, (core_run_next n _ _ (hstep n)).trans hn⟩
    | fault r =>
      rw [hcore] at hstep
      rw [runCommand_fault (action i) fuel s r hcore]
      exact ⟨1, core_run_fault 0 _ r (hstep 0)⟩
    | refused r => exact absurd hcore (perform_ne_refused _ s r)

/-- Settles O15: `exec` is a run of the command's actions, and so are as many moves of the core as it performs. -/
theorem execIsItsCoreSteps : Obligations.ExecIsItsCoreSteps := by
  intro s w i rest hl hw _
  obtain ⟨n, hn⟩ := coreMoves_run w i rest hw commandFuel s hl
  rw [← exec_eq_run] at hn
  refine ⟨fun t ht => ⟨n, ?_⟩, fun r hr => ⟨n, ?_⟩⟩
  · rw [hn, ht]
    rfl
  · rw [hn, hr]
    rfl

end Sys2Proof.Machine
end
